-- ==== Sys2Proof/Word.lean ====
section
/-! DEFINITION. Word.lean: the two word types of the block (00_scope.md R8): the 32-bit command and status words, and the byte. -/

namespace Sys2Proof

/-- A 32-bit word: a command word, the STATUS word or the DIRTY word (10_state.md R23, R30, R32). -/
abbrev Word := BitVec 32

/-- A byte: the unit of FB, SRC and every transport payload (20_memory.md R57). -/
abbrev Byte := BitVec 8

end Sys2Proof
end

