-- ==== Sys2Proof/Syntax.lean ====
section
/-! DEFINITION. Syntax.lean: the nine commands of the block (30_encoding.md R73), one constructor per row of the opcode table. -/

namespace Sys2Proof

/-- A command with its operands (30_encoding.md R71 to R73). A coordinate, row number, length or address is the unsigned
number its field holds (R72); `pat` is a pattern-form byte; `s` suppresses the blank command. WellFormed says that every
number fits its field (log entry 15). -/
inductive Instr where
  /-- INIT: initialise the panel and the framebuffer (41_sequencer.md R151). -/
  | init
  /-- CLEAR rs, re: zero rows rs to re - 1 (40_framebuffer.md R102). -/
  | clear (rs re : Nat)
  /-- BLANK: zero the framebuffer (40_framebuffer.md R103). -/
  | blank
  /-- SET_PIXEL x, y, pat: write one pixel's field (40_framebuffer.md R104). -/
  | setPixel (x y : Nat) (pat : Byte)
  /-- LOAD_IMAGE len: convert the source image (40_framebuffer.md R105). -/
  | loadImage (len : Nat)
  /-- REFRESH s: send the frame to the panel (41_sequencer.md R153). -/
  | refresh (s : Bool)
  /-- HALT: no operation (41_sequencer.md R155). -/
  | halt
  /-- READ_BYTE addr: read one framebuffer byte (40_framebuffer.md R107). -/
  | readByte (addr : Nat)
  /-- GET_PIXEL x, y: read one pixel's field (40_framebuffer.md R108). -/
  | getPixel (x y : Nat)
deriving DecidableEq, Repr

end Sys2Proof
end

