-- ==== Sys2Proof/WellFormed.lean ====
section
/-! DEFINITION. WellFormed.lean: every operand fits its field's width (30_encoding.md R71, R78: "It rejects an operand that
does not fit its field width"). A value that fits its field but lies outside the legal range is well formed; the Block
rejects it at run time (R72). -/

namespace Sys2Proof

/-- The field-width check of 30_encoding.md R71: x, y, rs and re have 8 bits, len 16, addr 15; pat is a byte and s a bit. -/
def Instr.wellFormed : Instr → Bool
  | .init => true
  | .clear rs re => decide (rs < 256) && decide (re < 256)
  | .blank => true
  | .setPixel x y _ => decide (x < 256) && decide (y < 256)
  | .loadImage len => decide (len < 65536)
  | .refresh _ => true
  | .halt => true
  | .readByte addr => decide (addr < 32768)
  | .getPixel x y => decide (x < 256) && decide (y < 256)

/-- An instruction the command word can carry. -/
abbrev Instr.WellFormed (i : Instr) : Prop := i.wellFormed = true

end Sys2Proof
end

