-- ==== Sys2Proof/Decode.lean ====
section
/-! DEFINITION. Decode.lean: the decoder of 30_encoding.md R76, total on every 32-bit word, and the encoder of R71 and R73. -/

namespace Sys2Proof

/-- `v[hi:lo]` of 00_scope.md R8: the field of bits hi down to lo, read as an unsigned number. -/
def bits (w : Word) (hi lo : Nat) : Nat := w.toNat / Nat.pow 2 lo % Nat.pow 2 (hi - lo + 1)

/-- Why a word is ILLEGAL (30_encoding.md R74 and R75). -/
inductive Illegal where
  /-- The opcode is 0x0 or 0xA to 0xF (R74). -/
  | reservedOpcode
  /-- The opcode is legal and a reserved bit of its format is 1 (R75). -/
  | reservedField
deriving DecidableEq, Repr

/-- The result of decoding: `Command | ILLEGAL` (30_encoding.md R76). -/
inductive Decoded where
  | command (i : Instr)
  | illegal (why : Illegal)
deriving DecidableEq, Repr

/-- The command when the format's reserved bits, read as a number, are zero, and ILLEGAL otherwise (R75, R76). -/
def withReserved (reserved : Nat) (i : Instr) : Decoded :=
  if reserved = 0 then .command i else .illegal .reservedField

/-- The decoding algorithm of 30_encoding.md R76. -/
def decode (w : Word) : Decoded :=
  match bits w 31 28 with
  | 1 => withReserved (bits w 27 0) .init
  | 2 => withReserved (bits w 11 0) (.clear (bits w 27 20) (bits w 19 12))
  | 3 => withReserved (bits w 27 0) .blank
  | 4 => withReserved (bits w 11 8)
      (.setPixel (bits w 27 20) (bits w 19 12) (BitVec.ofNat 8 (bits w 7 0)))
  | 5 => withReserved (bits w 27 16) (.loadImage (bits w 15 0))
  | 6 => withReserved (bits w 27 1) (.refresh (bits w 0 0 == 1))
  | 7 => withReserved (bits w 27 0) .halt
  | 8 => withReserved (bits w 27 15) (.readByte (bits w 14 0))
  | 9 => withReserved (bits w 11 0) (.getPixel (bits w 27 20) (bits w 19 12))
  | _ => .illegal .reservedOpcode

/-- The instruction of an opcode-table word; a command is exactly one 32-bit word (R70), so no wider value is one. -/
def decodeTableWord (nbits w : Nat) : Option Instr :=
  if nbits ≤ 32 ∧ w < 4294967296 then
    match decode (BitVec.ofNat 32 w) with
    | .command i => some i
    | .illegal _ => none
  else none

/-- The opcode of each command (30_encoding.md R73). -/
def Instr.opcode : Instr → Nat
  | .init => 1
  | .clear _ _ => 2
  | .blank => 3
  | .setPixel _ _ _ => 4
  | .loadImage _ => 5
  | .refresh _ => 6
  | .halt => 7
  | .readByte _ => 8
  | .getPixel _ _ => 9

/-- The word of a command as a number: the opcode in [31:28], each operand at the place its format gives it, reserved bits zero
(30_encoding.md R71, R73). -/
def Instr.wordValue : Instr → Nat
  | .init => 0x10000000
  | .clear rs re => 0x20000000 + rs * 0x100000 + re * 0x1000
  | .blank => 0x30000000
  | .setPixel x y pat => 0x40000000 + x * 0x100000 + y * 0x1000 + pat.toNat
  | .loadImage len => 0x50000000 + len
  | .refresh s => 0x60000000 + s.toNat
  | .halt => 0x70000000
  | .readByte addr => 0x80000000 + addr
  | .getPixel x y => 0x90000000 + x * 0x100000 + y * 0x1000

/-- The word of a command (30_encoding.md R71, R73). -/
def encode (i : Instr) : Word := BitVec.ofNat 32 i.wordValue

end Sys2Proof
end

