-- ==== Sys2Proof/Config.lean ====
section
/-! DEFINITION. Config.lean: the fixed constants of 00_scope.md R6, the types of the open parameters of R7, and the opaque
constants that stand for the parameters the spec leaves open. -/

namespace Sys2Proof

/-- The four 2-bit samples of a source-image byte (40_framebuffer.md R106, 20_memory.md R51). -/
inductive Sample where
  | a | b | c | d
deriving DecidableEq, Repr

/-- LOAD_MAP (00_scope.md R7): which sample goes into each of the four destination slots of two framebuffer bytes. -/
structure LoadMap where
  e0 : Sample
  o0 : Sample
  e1 : Sample
  o1 : Sample
deriving DecidableEq, Repr

/-- LOAD_MAP is a bijection from the four slots to the four samples (00_scope.md R7). -/
abbrev LoadMap.bijective (m : LoadMap) : Prop := [m.e0, m.o0, m.e1, m.o1].Nodup

/-- The default LOAD_MAP, the spec's own reading (40_framebuffer.md R106; 92_eei_decisions.md D9). -/
def LoadMap.default : LoadMap := { e0 := .c, o0 := .d, e1 := .a, o1 := .b }

/-- One entry of INIT_SEQ: an 8-bit value and whether it is data (00_scope.md R7; 90_conflicts.md C11). -/
structure InitEntry where
  value  : Byte
  isData : Bool
deriving DecidableEq, Repr

/-- The open parameters of 00_scope.md R7, fixed for the life of a machine. -/
structure Params where
  windowBlock : Vector Byte 14
  initSeq     : List InitEntry
  loadMap     : LoadMap
deriving DecidableEq, Repr

namespace Config

/-- W: panel width in pixels (R6). -/
@[simp] abbrev width : Nat := 240
/-- H: panel height in pixels (R6). -/
@[simp] abbrev height : Nat := 160
/-- ROW_BYTES (R6). -/
@[simp] abbrev rowBytes : Nat := 128
/-- PAD_BYTES (R6). -/
@[simp] abbrev padBytes : Nat := 8
/-- FB_SIZE = H × ROW_BYTES (R6). -/
@[simp] abbrev fbSize : Nat := 20480
/-- The size of the SRC space (20_memory.md R50). -/
@[simp] abbrev srcSpace : Nat := 65536
/-- SRC_ROW: source-image bytes per row (R6). -/
@[simp] abbrev srcRow : Nat := 60
/-- SRC_SIZE: the only accepted source-image length (R6). -/
@[simp] abbrev srcSize : Nat := 9600
/-- CHUNK_BYTES (R6). -/
@[simp] abbrev chunkBytes : Nat := 512
/-- N_CHUNKS (R6). -/
@[simp] abbrev nChunks : Nat := 40
/-- CMD_BLANK (R6). -/
@[simp] abbrev cmdBlank : Byte := 0x28#8
/-- CMD_UNBLANK (R6). -/
@[simp] abbrev cmdUnblank : Byte := 0x29#8
/-- T_RST_HI in milliseconds (R6). -/
@[simp] abbrev tRstHi : Nat := 80
/-- T_RST_LO in milliseconds (R6). -/
@[simp] abbrev tRstLo : Nat := 80
/-- T_RST_REL in milliseconds (R6). -/
@[simp] abbrev tRstRel : Nat := 150
/-- BUS_CLOCK in hertz (R6). -/
@[simp] abbrev busClock : Nat := 10000000
/-- BUS_MODE (R6). -/
@[simp] abbrev busMode : Nat := 0
/-- BUS_QUEUE (R6). -/
@[simp] abbrev busQueue : Nat := 7
/-- PAD_FILL, the padding value LOAD_IMAGE writes (R6). -/
@[simp] abbrev padFill : Byte := 0xFF#8

/-- WINDOW_BLOCK, an OPEN parameter: no value of it is known to any proof (R7; 92_eei_decisions.md D10; log entry 3). -/
opaque windowBlock : Vector Byte 14

/-- INIT_SEQ, an OPEN parameter: neither its length nor its entries are known to any proof (R7; D11; log entry 3). -/
opaque initSeq : List InitEntry

/-- The parameters a machine has at reset (log entry 3): the two open constants, and LOAD_MAP's default. -/
def params : Params :=
  { windowBlock := windowBlock, initSeq := initSeq, loadMap := .default }

end Config
end Sys2Proof
end

