-- ==== Sys2Proof/Machine/State.lean ====
section
/-! DEFINITION. Machine/State.lean: every state element of 10_state.md R20, the two ports, the Host's SRC memory, the outside
world's coming moves and the two records of 20_memory.md R63 and 70_reset_and_hazards.md R240, as plain data; and the reset state. -/

namespace Sys2Proof.Machine

/-- A byte memory: (address, byte) pairs, addresses strictly rising, no entry equal to what an unlisted address reads as. -/
abbrev Memory := List Host.Cell

/-- What an unlisted address reads as, in FB and in SRC. DESIGN CHOICE (log entries 4 and 5): the spec gives neither memory
contents before it is written. Unsafe: a proof could lean on the zero. -/
abbrev Memory.unlisted : Byte := 0x00#8

/-- The canonical form: addresses strictly rising, and no entry equal to what an unlisted address reads as. -/
abbrev Memory.wf (m : Memory) : Prop :=
  m.Pairwise (fun c d => c.1 < d.1) ∧ ∀ c ∈ m, c.2 ≠ Memory.unlisted

/-- Every listed address lies below `size`. -/
abbrev Memory.below (m : Memory) (size : Nat) : Prop := ∀ c ∈ m, c.1 < size

/-- DRV_STATE (10_state.md R21). -/
inductive DrvState where
  /-- After block reset. -/
  | uninit
  /-- An INIT command is running. -/
  | initializing
  /-- Initialization succeeded. -/
  | ready
  /-- An INIT failed; unusable until block reset. -/
  | failed
deriving DecidableEq, Repr

/-- The values of RSP_STATUS (30_encoding.md R82). Codes 8 to 15 are never produced (log entry 17). -/
inductive Status where
  | ok
  | errTransportInit
  | errTransportWrite
  | errBounds
  | errLength
  | errLevel
  | errState
  | errOpcode
deriving DecidableEq, Repr

/-- The level of an output line: not driven, Low or High (10_state.md R27, R28). -/
inductive Pin where
  | z
  | low
  | high
deriving DecidableEq, Repr

/-- SEQ, the sequencer micro-state (10_state.md R29). -/
inductive Seq where
  | idle
  | exec
  | initBus
  | initLines
  | initZero
  | initRstHi
  | initRstLo
  | initRstRel
  | initCmds
  | refBlank
  | refWindow
  | refData
  | refUnblank
deriving DecidableEq, Repr

/-- A transport request (10_state.md R35, 20_memory.md R63). -/
inductive Request where
  /-- BUSINIT with BUS_CLOCK in hertz, BUS_MODE and BUS_QUEUE. -/
  | busInit (clock mode queue : Nat)
  /-- TRANSMIT with its payload, bitLength and the level of DC at issue. -/
  | transmit (payload : List Byte) (bitLength : Nat) (dc : Pin)
  /-- SLEEP with its duration in milliseconds. -/
  | sleep (ms : Nat)
deriving DecidableEq, Repr

/-- The Transport's answer to a request: ok or fail for BUSINIT and TRANSMIT, done for SLEEP (20_memory.md R63). -/
inductive Answer where
  | ok
  | fail
  | done
deriving DecidableEq, Repr

/-- A recorded request event: the request (kind, payload, DC level), the RST level while it was outstanding, and its answer;
no answer for a request that a block reset abandoned (20_memory.md R63 item 7; log entry 10). -/
structure Event where
  request : Request
  rst     : Pin
  answer  : Option Answer
deriving DecidableEq, Repr

/-- A response: RSP_STATUS and RSP_DATA as a command's completion wrote them (10_state.md R24, 70_reset_and_hazards.md R240). -/
structure Response where
  status : Status
  data   : Byte
deriving DecidableEq, Repr

/-- One move of the outside world (00_scope.md R5; log entry 1). -/
inductive Input where
  /-- The Host drives cmd_valid = 1 with this word (10_state.md R33). -/
  | offer (w : Word)
  /-- The Host writes a byte of SRC (20_memory.md R51). -/
  | srcWrite (a : BitVec 16) (v : Byte)
  /-- The Transport gives tx_done, with this tx_ok (20_memory.md R63). -/
  | txDone (txOk : Bool)
  /-- The block reset input is asserted (70_reset_and_hazards.md R230). -/
  | reset
  /-- Nothing outside the Block changes it: time passes, or a late answer comes to a request that a reset abandoned, which R230
  says is ignored (log entries 1 and 21). -/
  | pass
deriving DecidableEq, Repr

/-- The machine's state. -/
structure State where
  /-- DRV_STATE (R21). -/
  drv         : DrvState
  /-- BUSY (R22). -/
  busy        : Bool
  /-- CMD (R23). -/
  cmd         : Word
  /-- RSP_STATUS (R24). -/
  rspStatus   : Status
  /-- RSP_DATA (R24). -/
  rspData     : Byte
  /-- FB (R25). -/
  fb          : Memory
  /-- DIRTY_MIN (R26). -/
  dirtyMin    : BitVec 16
  /-- DIRTY_MAX (R26). -/
  dirtyMax    : BitVec 16
  /-- DC (R27). -/
  dc          : Pin
  /-- RST (R28). -/
  rst         : Pin
  /-- SEQ (R29). -/
  seq         : Seq
  /-- INIT_IDX (R29). -/
  initIdx     : Nat
  /-- CHUNK (R29): 6 bits, 0 to 40 (log entry 19). -/
  chunk       : Fin 41
  /-- WERR (R29). -/
  werr        : Bool
  /-- The command port: the word the Host offers, if cmd_valid = 1 (R33). -/
  offered     : Option Word
  /-- The transport request port: the outstanding request, if tx_valid = 1 (R35). -/
  outstanding : Option Request
  /-- SRC, the Host's source-image memory (20_memory.md R51). -/
  src         : Memory
  /-- The coming moves of Host, Transport and reset input, oldest first (log entry 1). -/
  inputs      : List Input
  /-- The open parameters (00_scope.md R7; log entry 3). -/
  params      : Params
  /-- The transport request events so far, oldest first (20_memory.md R63; log entry 10). -/
  trace       : List Event
  /-- The responses so far, oldest first (70_reset_and_hazards.md R240; log entry 10). -/
  responses   : List Response
deriving DecidableEq, Repr

/-- The reasons the model stops with a fault. -/
inductive Fault where
  /-- Raised by `step` alone, when BUSY = 1 and 41_sequencer.md R152 and R154 have no row for the sequencer's position (SEQ =
  IDLE, INIT_IDX beyond N_INIT, or a request outstanding at a row that issues none). Safe: no state a run reaches has such a
  position (log entry 8). -/
  | noSequencerRow (seq : Seq)
deriving DecidableEq, Repr

/-- The reasons the model refuses. -/
inductive Refusal where
  /-- Raised by an arm of `exec` for a command that has no meaning yet; no arm is left with it. Safe. -/
  | notModelled (mnemonic : String)
  /-- Raised by `waitingStep` when the next move writes SRC while BUSY = 1: "A model gives the Host no move that writes SRC while BUSY
  = 1" (70_reset_and_hazards.md R234), so such a run ends here. Safe in that the model stops: a claim says
  nothing of the run of a Host that breaks the duty (log entry 9). -/
  | srcWriteWhileBusy (a : BitVec 16)
deriving DecidableEq, Repr

/-- The state right after block reset (10_state.md R20, 70_reset_and_hazards.md R230). FB, CMD, INIT_IDX, CHUNK and WERR are
unspecified there: log entries 4 and 6. No word is offered and nothing has happened yet: log entry 7. -/
def State.reset : State :=
  { drv := .uninit
    busy := false
    cmd := 0#32
    rspStatus := .ok
    rspData := 0x00#8
    fb := []
    dirtyMin := 0xFFFF#16
    dirtyMax := 0xFFFF#16
    dc := .z
    rst := .z
    seq := .idle
    initIdx := 0
    chunk := 0
    werr := false
    offered := none
    outstanding := none
    src := []
    inputs := []
    params := Config.params
    trace := []
    responses := [] }

end Sys2Proof.Machine
end

