-- ==== Sys2Proof/Machine/Flags.lean ====
section
/-! DEFINITION. Machine/Flags.lean: the block has no flags (10_state.md R31). What stands in their place are the numeric codes of
its enumerations and the two status words computed from them (10_state.md R21, R30, R32; 30_encoding.md R82). -/

namespace Sys2Proof.Machine

/-- The 2-bit encoding of DRV_STATE (10_state.md R21). -/
def DrvState.code : DrvState → BitVec 2
  | .uninit => 0#2
  | .initializing => 1#2
  | .ready => 2#2
  | .failed => 3#2

/-- The 4-bit status code (30_encoding.md R82). -/
def Status.code : Status → BitVec 4
  | .ok => 0#4
  | .errTransportInit => 1#4
  | .errTransportWrite => 2#4
  | .errBounds => 3#4
  | .errLength => 4#4
  | .errLevel => 5#4
  | .errState => 6#4
  | .errOpcode => 7#4

/-- STATUS (10_state.md R30): RSP_DATA from bit 8, RSP_STATUS from bit 4, DRV_STATE from bit 1, BUSY in bit 0, the rest 0. -/
def statusWord (s : State) : Word :=
  BitVec.ofNat 32
    (s.rspData.toNat * 0x100 + s.rspStatus.code.toNat * 0x10 + s.drv.code.toNat * 0x2 + s.busy.toNat)

/-- DIRTY (10_state.md R32): {DIRTY_MAX, DIRTY_MIN}, DIRTY_MIN in bits [15:0] and DIRTY_MAX in bits [31:16]. -/
def dirtyWord (s : State) : Word := BitVec.ofNat 32 (s.dirtyMax.toNat * 0x10000 + s.dirtyMin.toNat)

/-- cmd_ready (10_state.md R33). -/
def cmdReady (s : State) : Bool := !s.busy

/-- Everything the Host sees without issuing a command (10_state.md R34): STATUS, DIRTY, the two lines and cmd_ready. -/
structure HostView where
  status   : Word
  dirty    : Word
  dc       : Pin
  rst      : Pin
  cmdReady : Bool
deriving DecidableEq, Repr

/-- The Host's view of a state (10_state.md R34). -/
def hostView (s : State) : HostView :=
  { status := statusWord s, dirty := dirtyWord s, dc := s.dc, rst := s.rst, cmdReady := cmdReady s }

end Sys2Proof.Machine
end

