-- ==== Sys2Proof/Machine/Operands.lean ====
section
/-! DEFINITION. Machine/Operands.lean: grey levels and patterns (30_encoding.md R79, R80), pixel addressing (20_memory.md R53,
40_framebuffer.md R100) and the source-image conversion (40_framebuffer.md R106). -/

namespace Sys2Proof.Machine

/-- The four grey levels in level form, darkest first (30_encoding.md R79). -/
inductive Level where
  | black
  | darkGrey
  | lightGrey
  | white
deriving DecidableEq, Repr

/-- The 2-bit level code of a level (30_encoding.md R79). -/
def Level.code : Level → BitVec 2
  | .black => 0#2
  | .darkGrey => 1#2
  | .lightGrey => 2#2
  | .white => 3#2

/-- The level of a 2-bit code (30_encoding.md R79). -/
def levelOfCode (c : BitVec 2) : Level :=
  match c.toNat with
  | 0 => .black
  | 1 => .darkGrey
  | 2 => .lightGrey
  | _ => .white

/-- PAT(L): the pattern form of a level (30_encoding.md R79). -/
def pat : Level → Byte
  | .black => 0x00#8
  | .darkGrey => 0x08#8
  | .lightGrey => 0x10#8
  | .white => 0x1C#8

/-- LegalPat(v): v is one of the four patterns (30_encoding.md R80, 40_framebuffer.md R100). -/
def legalPat (v : Byte) : Bool :=
  v == 0x00#8 || v == 0x08#8 || v == 0x10#8 || v == 0x1C#8

/-- LevelOf(v): the level of a legal pattern; no level otherwise (30_encoding.md R80). -/
def levelOf (v : Byte) : Option Level :=
  if v = 0x00#8 then some .black
  else if v = 0x08#8 then some .darkGrey
  else if v = 0x10#8 then some .lightGrey
  else if v = 0x1C#8 then some .white
  else none

/-- InPanel(x, y) (40_framebuffer.md R100). -/
def inPanel (x y : Nat) : Bool := decide (x < Config.width) && decide (y < Config.height)

/-- PixAddr(x, y) (20_memory.md R53). -/
def pixAddr (x y : Nat) : Nat := 128 * y + 8 + x / 2

/-- PixShift(x) (20_memory.md R53). -/
def pixShift (x : Nat) : Nat := 3 * (x % 2)

/-- FieldOf(b, s): the field of a pixel byte in pattern position (30_encoding.md R80). -/
def fieldOf (b : Byte) (s : Nat) : Byte := (b >>> s) &&& 0x1C#8

/-- A pixel byte with the field at shift s replaced by a pattern (40_framebuffer.md R104). -/
def withField (b : Byte) (s : Nat) (p : Byte) : Byte := (b &&& ~~~(0x1C#8 <<< s)) ||| (p <<< s)

/-- smp(·): a sample of a source byte, as a level (40_framebuffer.md R106). -/
def sampleOf (v : Byte) : Sample → Level
  | .a => levelOfCode (v.extractLsb' 0 2)
  | .b => levelOfCode (v.extractLsb' 2 2)
  | .c => levelOfCode (v.extractLsb' 4 2)
  | .d => levelOfCode (v.extractLsb' 6 2)

/-- Two levels in one framebuffer byte, the second shifted left by 3, complemented (40_framebuffer.md R106). -/
def packInverted (even odd : Level) : Byte := ~~~(pat even ||| (pat odd <<< 3))

/-- Conv(v) under a LOAD_MAP: the two framebuffer bytes of one source byte (40_framebuffer.md R106). -/
def conv (m : LoadMap) (v : Byte) : Byte × Byte :=
  (packInverted (sampleOf v m.e0) (sampleOf v m.o0), packInverted (sampleOf v m.e1) (sampleOf v m.o1))

end Sys2Proof.Machine
end

