-- ==== Sys2Proof/Machine/Ops.lean ====
section
/-! DEFINITION. Machine/Ops.lean: the operations over memory, lines, transport port and response that every command is built
from (00_scope.md R10 to R12, 60_exceptions.md R203, 70_reset_and_hazards.md R230). -/

namespace Sys2Proof.Machine

/-- A byte of a memory (00_scope.md R10). -/
def Memory.read : Memory → Nat → Byte
  | [], _ => Memory.unlisted
  | (k, v) :: rest, a => if k = a then v else Memory.read rest a

/-- A memory with an entry put in front, unless its byte is what an unlisted address reads as. -/
def Memory.put (a : Nat) (v : Byte) (m : Memory) : Memory :=
  if v = Memory.unlisted then m else (a, v) :: m

/-- A byte written to a memory, in canonical form (00_scope.md R10). -/
def Memory.write : Memory → Nat → Byte → Memory
  | [], a, v => Memory.put a v []
  | (k, w) :: rest, a, v =>
    if a < k then Memory.put a v ((k, w) :: rest)
    else if a = k then Memory.put a v rest
    else (k, w) :: Memory.write rest a v

/-- 0x00 written to every address from `lo` up to `hi`, exclusive. -/
def Memory.zeroRange (m : Memory) (lo hi : Nat) : Memory :=
  m.filter (fun c => decide (c.1 < lo) || decide (hi ≤ c.1))

/-- The memory whose bytes at `start`, ..., `start + n - 1` are given by `f` and which lists nothing else. -/
def Memory.ofFn (f : Nat → Byte) : Nat → Nat → Memory
  | _, 0 => []
  | start, n + 1 => Memory.put start (f start) (Memory.ofFn f (start + 1) n)

/-- `n` bytes of a memory from address `start`, ascending (20_memory.md R55). -/
def Memory.slice (m : Memory) (start n : Nat) : List Byte :=
  (List.range n).map (fun j => Memory.read m (start + j))

/-- The bytes of FB from `lo` up to `hi` (exclusive) set to 0x00 (40_framebuffer.md R101 to R103). -/
def State.zeroFb (lo hi : Nat) (s : State) : State := { s with fb := s.fb.zeroRange lo hi }

/-- `SetLine(DC, level)` (00_scope.md R11). -/
def State.setDc (p : Pin) (s : State) : State := { s with dc := p }

/-- `SetLine(RST, level)` (00_scope.md R11). -/
def State.setRst (p : Pin) (s : State) : State := { s with rst := p }

/-- SEQ moves to a row. -/
def State.goto (q : Seq) (s : State) : State := { s with seq := q }

/-- A request presented on the transport port (20_memory.md R63 item 1). -/
def State.issue (r : Request) (s : State) : State := { s with outstanding := some r }

/-- The answer a tx_done with this tx_ok gives a request; tx_ok has no meaning for a SLEEP (10_state.md R35; log entry 12). -/
def Request.answer (r : Request) (txOk : Bool) : Answer :=
  match r with
  | .busInit _ _ _ => if txOk then .ok else .fail
  | .transmit _ _ _ => if txOk then .ok else .fail
  | .sleep _ => .done

/-- The outstanding request leaves the port and is recorded with its answer, if it got one (20_memory.md R63 item 7). -/
def State.record (answer : Request → Option Answer) (s : State) : State :=
  match s.outstanding with
  | some r => { s with outstanding := none, trace := s.trace ++ [⟨r, s.rst, answer r⟩] }
  | none => s

/-- `complete(status, data)` (00_scope.md R12, 60_exceptions.md R203): the response is written, BUSY falls, SEQ is IDLE. -/
def complete (status : Status) (data : Byte) (s : State) : State :=
  { s with
    rspStatus := status
    rspData := data
    busy := false
    seq := .idle
    responses := s.responses ++ [⟨status, data⟩] }

/-- `raise E` (00_scope.md R12): completion with the error's code and data 0x00. It is the block's only error entry; there is no
handler and nothing to return to (60_exceptions.md R203, R204). -/
def raise (e : Status) (s : State) : State := complete e 0x00#8 s

/-- `ok(data)` (00_scope.md R12). -/
def ok (data : Byte) (s : State) : State := complete .ok data s

/-- A word taken from the command port (10_state.md R33): CMD and BUSY are written and SEQ is the command's first step. -/
def State.accept (w : Word) (first : Seq) (s : State) : State :=
  { s with offered := none, cmd := w, busy := true, seq := first }

/-- The state after the reset input (70_reset_and_hazards.md R230): the block's state takes its reset values, the running command
and an outstanding request are abandoned. What belongs to the Host (the offered word, SRC, the coming inputs), the parameters and
the records stay (log entry 11). -/
def blockReset (s : State) : State :=
  { State.reset with
    offered := s.offered
    src := s.src
    inputs := s.inputs
    params := s.params
    trace := (s.record (fun _ => none)).trace
    responses := s.responses }

end Sys2Proof.Machine
end

