-- ==== Sys2Proof/Machine/Framebuffer.lean ====
section
/-! DEFINITION. Machine/Framebuffer.lean: the Framebuffer Store commands of 40_framebuffer.md: CLEAR, BLANK, SET_PIXEL, LOAD_IMAGE,
READ_BYTE and GET_PIXEL, and the internal FbInit. No command of this family issues a transport request. -/

namespace Sys2Proof.Machine

/-- `RequireReady()` in front of a command's rule (40_framebuffer.md R100): the ready check comes before every operand check. -/
def requireReady (s : State) (rule : State → State) : Host.Outcome State Fault Refusal :=
  if s.drv = .ready then .next (rule s) else .next (raise .errState s)

/-- FbInit, internal (40_framebuffer.md R101). -/
def fbInit (s : State) : State :=
  { s.zeroFb 0 Config.fbSize with dirtyMin := 0xFFFF#16, dirtyMax := 0xFFFF#16 }

/-- CLEAR rs, re (40_framebuffer.md R102). -/
def execClear (rs re : Nat) (s : State) : Host.Outcome State Fault Refusal :=
  requireReady s fun s =>
    if rs ≤ re ∧ re ≤ Config.height then
      ok 0x00#8 (s.zeroFb (Config.rowBytes * rs) (Config.rowBytes * re))
    else raise .errBounds s

/-- BLANK (40_framebuffer.md R103). -/
def execBlank (s : State) : Host.Outcome State Fault Refusal :=
  requireReady s fun s => ok 0x00#8 (s.zeroFb 0 Config.fbSize)

/-- SET_PIXEL x, y, pat (40_framebuffer.md R104): bounds before level (60_exceptions.md R202). -/
def execSetPixel (x y : Nat) (p : Byte) (s : State) : Host.Outcome State Fault Refusal :=
  requireReady s fun s =>
    if inPanel x y then
      if legalPat p then
        ok 0x00#8
          { s with fb := s.fb.write (pixAddr x y) (withField (s.fb.read (pixAddr x y)) (pixShift x) p) }
      else raise .errLevel s
    else raise .errBounds s

/-- `SrcRead(a)` (00_scope.md R10, 20_memory.md R51). -/
def srcRead (s : State) (a : Nat) : Byte := s.src.read a

/-- The byte LOAD_IMAGE writes at FB address a = 128*i + b (40_framebuffer.md R105): padding for b < 8, else the half of the
conversion of source byte (i, j) that belongs to b = 8 + 2*j or b = 8 + 2*j + 1. -/
def imageByte (s : State) (a : Nat) : Byte :=
  let i := a / Config.rowBytes
  let b := a % Config.rowBytes
  if b < Config.padBytes then Config.padFill
  else
    let j := (b - Config.padBytes) / 2
    let c := conv s.params.loadMap (srcRead s (Config.srcRow * i + j))
    if (b - Config.padBytes) % 2 = 0 then c.1 else c.2

/-- LOAD_IMAGE len (40_framebuffer.md R105): every byte of FB is overwritten. -/
def execLoadImage (len : Nat) (s : State) : Host.Outcome State Fault Refusal :=
  requireReady s fun s =>
    if len = Config.srcSize then
      ok 0x00#8
        { s with fb := Memory.ofFn (imageByte s) 0 Config.fbSize, dirtyMin := 0#16, dirtyMax := 159#16 }
    else raise .errLength s

/-- READ_BYTE addr (40_framebuffer.md R107). -/
def execReadByte (addr : Nat) (s : State) : Host.Outcome State Fault Refusal :=
  requireReady s fun s =>
    if addr < Config.fbSize then ok (s.fb.read addr) s else raise .errBounds s

/-- GET_PIXEL x, y (40_framebuffer.md R108): the raw field, no level decode. -/
def execGetPixel (x y : Nat) (s : State) : Host.Outcome State Fault Refusal :=
  requireReady s fun s =>
    if inPanel x y then ok (fieldOf (s.fb.read (pixAddr x y)) (pixShift x)) s else raise .errBounds s

end Sys2Proof.Machine
end

