-- ==== Sys2Proof/Machine/Sequencer.lean ====
section
/-! DEFINITION. Machine/Sequencer.lean: the Panel Transport Driver commands of 41_sequencer.md: WriteCD, the INIT and REFRESH state
machines (R152, R154) and the commands INIT, REFRESH and HALT. -/

namespace Sys2Proof.Machine

/-- The level of DC for a data or a command byte (10_state.md R27). -/
def dcLevel (isData : Bool) : Pin := if isData then .high else .low

/-- A TRANSMIT of these bytes with DC as it stands (00_scope.md R11, 20_memory.md R63 item 2). -/
def transmit (payload : List Byte) (s : State) : State :=
  s.issue (.transmit payload (8 * payload.length) s.dc)

/-- WriteCD(v, d), the internal micro-operation (41_sequencer.md R150). -/
def writeCd (v : Byte) (isData : Bool) (s : State) : State := transmit [v] (s.setDc (dcLevel isData))

/-- The payload of raster chunk k, FB[512k .. 512k + 511] (20_memory.md R54). -/
def chunkPayload (s : State) (k : Nat) : List Byte := s.fb.slice (Config.chunkBytes * k) Config.chunkBytes

/-- The request that the row SEQ stands at issues, or none if that row issues none (41_sequencer.md R152 and R154). -/
def rowRequest (s : State) : Option Request :=
  match s.seq with
  | .idle => none
  | .exec => none
  | .initBus => some (.busInit Config.busClock Config.busMode Config.busQueue)
  | .initLines => none
  | .initZero => none
  | .initRstHi => some (.sleep Config.tRstHi)
  | .initRstLo => some (.sleep Config.tRstLo)
  | .initRstRel => some (.sleep Config.tRstRel)
  | .initCmds => (s.params.initSeq[s.initIdx]?).map fun e => .transmit [e.value] 8 (dcLevel e.isData)
  | .refBlank => some (.transmit [Config.cmdBlank] 8 .low)
  | .refWindow => some (.transmit s.params.windowBlock.toList 112 .low)
  | .refData =>
    if s.chunk.val < Config.nChunks then some (.transmit (chunkPayload s s.chunk.val) 4096 .high) else none
  | .refUnblank => some (.transmit [Config.cmdUnblank] 8 .low)

/-- R152 and R154 have a row for the sequencer's position. SEQ = EXEC is no row of theirs: there the command's own rule runs. -/
def hasRow (s : State) : Bool :=
  match s.seq with
  | .idle => false
  | .exec => false
  | .initCmds => decide (s.initIdx ≤ s.params.initSeq.length)
  | .initBus | .initLines | .initZero | .initRstHi | .initRstLo | .initRstRel
  | .refBlank | .refWindow | .refData | .refUnblank => true

/-- The action of the row SEQ stands at (41_sequencer.md R152, R154): it issues the row's request, or, in a row that issues
none, it does the row's writes and moves on. -/
def rowAction (s : State) : State :=
  match s.seq with
  | .idle => s
  | .exec => s
  | .initBus => s.issue (.busInit Config.busClock Config.busMode Config.busQueue)
  | .initLines => ((s.setDc .low).setRst .high).goto .initZero
  | .initZero => (fbInit s).goto .initRstHi
  | .initRstHi => s.issue (.sleep Config.tRstHi)
  | .initRstLo => (s.setRst .low).issue (.sleep Config.tRstLo)
  | .initRstRel => (s.setRst .high).issue (.sleep Config.tRstRel)
  | .initCmds =>
    match s.params.initSeq[s.initIdx]? with
    | some e => writeCd e.value e.isData s
    | none => ok 0x00#8 { s with drv := .ready }
  | .refBlank => writeCd Config.cmdBlank false s
  | .refWindow => transmit s.params.windowBlock.toList (s.setDc .low)
  | .refData =>
    if s.chunk.val < Config.nChunks then transmit (chunkPayload s s.chunk.val) (s.setDc .high)
    else s.goto .refUnblank
  | .refUnblank => writeCd Config.cmdUnblank false s

/-- An INIT that fails: DRV_STATE is FAILED and the command completes with the error (41_sequencer.md R151). -/
def initFails (e : Status) (s : State) : State := raise e { s with drv := .failed }

/-- A failed answer sets WERR and changes nothing else (41_sequencer.md R154). -/
def noteFailure (txOk : Bool) (s : State) : State := { s with werr := s.werr || !txOk }

/-- The next raster chunk (41_sequencer.md R154). -/
def nextChunk (s : State) : State :=
  if h : s.chunk.val < 40 then { s with chunk := ⟨s.chunk.val + 1, by omega⟩ } else s

/-- What an answer to the row's request makes of the state (41_sequencer.md R152, R154), after the answer is recorded. -/
def rowAnswered (txOk : Bool) (s : State) : State :=
  match s.seq with
  | .idle => s
  | .exec => s
  | .initBus => if txOk then s.goto .initLines else initFails .errTransportInit s
  | .initLines => s
  | .initZero => s
  | .initRstHi => s.goto .initRstLo
  | .initRstLo => s.goto .initRstRel
  | .initRstRel => { s.goto .initCmds with initIdx := 0 }
  | .initCmds =>
    if txOk then { s with initIdx := s.initIdx + 1 } else initFails .errTransportWrite s
  | .refBlank => (noteFailure txOk s).goto .refWindow
  | .refWindow => { (noteFailure txOk s).goto .refData with chunk := 0 }
  | .refData => nextChunk (noteFailure txOk s)
  | .refUnblank =>
    let t := noteFailure txOk s
    complete (if t.werr then .errTransportWrite else .ok) 0x00#8 t

/-- The outstanding request is answered: it is recorded, and the sequencer moves on (20_memory.md R63 item 5). -/
def answered (txOk : Bool) (s : State) : State :=
  rowAnswered txOk (s.record fun r => some (r.answer txOk))

/-- Row actions, at most `n`, until a request is outstanding or the command has completed. No row chain of R152 and R154 without
a request is longer than three actions (INIT_LINES, INIT_ZERO, INIT_RST_HI). -/
def settle : Nat → State → State
  | 0, s => s
  | n + 1, s => if s.outstanding.isNone && hasRow s then settle n (rowAction s) else s

/-- The answers at the head of the coming inputs, each given to the outstanding request, as long as a request is outstanding
and the next input is an answer (20_memory.md R63). Three points R206 and R230 leave open are the model's choice (DESIGN CHOICE): `txDone` always answers
the outstanding request, a late answer to an abandoned one being a `pass` (log entry 21); an answer and the issue of the next request
are one step, so a reset lands before the answer or after that issue, never between them (log entry 22); and the command's last answer
and its completion are one step, also where R152 gives the completion a row of its own (INIT_CMDS with INIT_IDX = N_INIT), so a reset
lands before that answer, and the command gives no response, or after the response is written, never between them (log entry 22). -/
def consume : List Input → State → State
  | [], s => s
  | .txDone txOk :: rest, s =>
    if s.outstanding.isSome then consume rest (settle 3 (answered txOk { s with inputs := rest })) else s
  | .offer _ :: _, s => s
  | .srcWrite _ _ :: _, s => s
  | .reset :: _, s => s
  | .pass :: _, s => s

/-- The sequencer runs from the row SEQ stands at, up to the command's completion or to a request that has no answer yet. -/
def runSequencer (s : State) : State :=
  let t := settle 3 s
  consume t.inputs t

/-- INIT (41_sequencer.md R151). -/
def execInit (s : State) : Host.Outcome State Fault Refusal :=
  if s.drv = .uninit then .next (runSequencer { s with drv := .initializing, busy := true, seq := .initBus })
  else .next (raise .errState s)

/-- REFRESH s (41_sequencer.md R153): `suppress` is the operand s. -/
def execRefresh (suppress : Bool) (s : State) : Host.Outcome State Fault Refusal :=
  requireReady s fun s =>
    runSequencer { s with werr := false, busy := true, seq := if suppress then .refWindow else .refBlank }

/-- HALT (41_sequencer.md R155): accepted in every DRV_STATE, no effect but its response. -/
def execHalt (s : State) : Host.Outcome State Fault Refusal := .next (ok 0x00#8 s)

end Sys2Proof.Machine
end

