-- ==== Sys2Proof/Machine/Dispatch.lean ====
section
/-! DEFINITION. Machine/Dispatch.lean: one arm per command. -/

namespace Sys2Proof.Machine

def exec (i : Instr) (s : State) : Host.Outcome State Fault Refusal :=
  match i with
  | .init => Sys2Proof.Machine.execInit s
  | .clear rs re => Sys2Proof.Machine.execClear rs re s
  | .blank => Sys2Proof.Machine.execBlank s
  | .setPixel x y p => Sys2Proof.Machine.execSetPixel x y p s
  | .loadImage len => Sys2Proof.Machine.execLoadImage len s
  | .refresh suppress => Sys2Proof.Machine.execRefresh suppress s
  | .halt => Sys2Proof.Machine.execHalt s
  | .readByte addr => Sys2Proof.Machine.execReadByte addr s
  | .getPixel x y => Sys2Proof.Machine.execGetPixel x y s

end Sys2Proof.Machine
end

