-- ==== Sys2Proof/Machine/Ports.lean ====
section
/-! DEFINITION. Machine/Ports.lean: the command port, the transport answers and the reset input (10_state.md R33 to R35,
20_memory.md R63, 70_reset_and_hazards.md R230 and R233): what the step function does in each situation. -/

namespace Sys2Proof.Machine

/-- The first step of a command, as SEQ holds it at acceptance (10_state.md R29, R33). DESIGN CHOICE (log entry 18): HALT and an
ILLEGAL word stand under EXEC. R29 gives EXEC to the one-step commands of 40_framebuffer.md and names no step for these two, and
neither 41_sequencer.md R155 nor 30_encoding.md R76 gives them one. -/
def firstSeq (d : Decoded) : Seq :=
  match d with
  | .command .init => .initBus
  | .command (.refresh suppress) => if suppress then .refWindow else .refBlank
  | .command (.clear _ _) | .command .blank | .command (.setPixel _ _ _) | .command (.loadImage _)
  | .command .halt | .command (.readByte _) | .command (.getPixel _ _) => .exec
  | .illegal _ => .exec

/-- The state right after the port accepted the word (10_state.md R33). -/
def acceptWord (w : Word) (s : State) : State := s.accept w (firstSeq (decode w))

/-- The rule of the command in CMD runs; an ILLEGAL word completes with ERR_OPCODE before any other check (30_encoding.md R76,
60_exceptions.md R202). -/
def runCommand (s : State) : Host.Outcome State Fault Refusal :=
  match decode s.cmd with
  | .command i => exec i s
  | .illegal _ => .next (raise .errOpcode s)

/-- The offered word is accepted, and then its command runs, or, if the reset input comes next, is aborted without a response
(R33, R230; 60_exceptions.md R206; log entry 11). -/
def acceptStep (w : Word) (s : State) : Host.Outcome State Fault Refusal :=
  match s.inputs with
  | .reset :: rest => .next (blockReset { acceptWord w s with inputs := rest })
  | _ => runCommand (acceptWord w s)

/-- A move of the outside world while BUSY = 0, taken off the coming inputs: an offered word stands on the port, a Host write
changes SRC, an answer to no outstanding request is ignored, a reset resets (R33, R51, R230). -/
def idleInput (i : Input) (s : State) : State :=
  match i with
  | .offer w => { s with offered := some w }
  | .srcWrite a v => { s with src := s.src.write a.toNat v }
  | .txDone _ => s
  | .reset => blockReset s
  | .pass => s

/-- A step with BUSY = 0: an offered word is accepted and its command runs; without one the next move of the outside world
happens; without either the block waits with cmd_ready = 1 (R33, R230). -/
def idleStep (s : State) : Host.Outcome State Fault Refusal :=
  match s.offered with
  | some w => acceptStep w s
  | none =>
    match s.inputs with
    | [] => .next s
    | i :: rest => .next (idleInput i { s with inputs := rest })

/-- A step with BUSY = 1 and a request outstanding: the next move of the outside world happens; without one the block stays BUSY
(20_memory.md R63 item 6). A word offered now waits on the port, replacing one that waits there (70_reset_and_hazards.md R233). The
Host has no move that writes SRC now (R234): one is refused by name (log entry 9). -/
def waitingStep (s : State) : Host.Outcome State Fault Refusal :=
  match s.inputs with
  | [] => .next s
  | .txDone _ :: _ => .next (consume s.inputs s)
  | .offer w :: rest => .next { s with offered := some w, inputs := rest }
  | .srcWrite a _ :: _ => .refused (.srcWriteWhileBusy a)
  | .reset :: rest => .next (blockReset { s with inputs := rest })
  | .pass :: rest => .next { s with inputs := rest }

/-- A step with BUSY = 1 and no request outstanding: the reset input comes first; else the command goes on where SEQ stands. -/
def resumeStep (s : State) : Host.Outcome State Fault Refusal :=
  match s.inputs with
  | .reset :: rest => .next (blockReset { s with inputs := rest })
  | _ =>
    if s.seq = .exec then runCommand s
    else if hasRow s then .next (runSequencer s)
    else .fault (.noSequencerRow s.seq)

/-- A step with BUSY = 1. A request outstanding at a row that issues none is a position without a row (log entry 8). -/
def busyStep (s : State) : Host.Outcome State Fault Refusal :=
  if s.outstanding.isNone then resumeStep s
  else if s.inputs.head? = some .reset ∨ (rowRequest s).isSome then waitingStep s
  else .fault (.noSequencerRow s.seq)

end Sys2Proof.Machine
end

