-- ==== Sys2Proof/Machine/Step.lean ====
section
/-! DEFINITION. Machine/Step.lean: one step of the machine (log entry 2), and where it fetches its next command. -/

namespace Sys2Proof.Machine

/-- One step: with BUSY = 0 the Block takes the offered word and runs its command, or the outside world moves; with BUSY = 1 the
outside world answers, offers, resets, or nothing happens. -/
def step (s : State) : Host.Outcome State Fault Refusal :=
  if s.busy then busyStep s else idleStep s

/-- The state with this word offered on the command port and the Block ready to take it and run its command, which is how a program
word reaches this machine: the Host offers it (10_state.md R33; log entry 7). A reset that would abort the command is no longer to
come (log entry 11). -/
def State.withFetchWord (s : State) (nbits w : Nat) : State :=
  { s with
    offered := some (BitVec.ofNat 32 (w % Nat.pow 2 nbits))
    busy := false
    seq := .idle
    outstanding := none
    inputs := s.inputs.dropWhile (· == .reset) }

end Sys2Proof.Machine
end

