-- ==== Sys2Proof/Machine/Assembler.lean ====
section
/-! DEFINITION. Machine/Assembler.lean: the assembler's lines (30_encoding.md R78) and its one pseudo-instruction SET_LEVEL (R83).
A line is a list of characters. What R78 leaves open (letter case, spaces, empty lines) is log entry 14. -/

namespace Sys2Proof.Machine

/-- SET_LEVEL x, y, L expands to SET_PIXEL x, y, PAT(L) (30_encoding.md R83). -/
def setLevel (x y : Nat) (l : Level) : Instr := .setPixel x y (pat l)

/-- What the assembler makes of a line. -/
inductive AsmLine where
  /-- A command's word. -/
  | word (w : Word)
  /-- A line that holds nothing but spaces and a comment. -/
  | empty
  /-- A line that is no command, or whose operand does not fit its field. -/
  | rejected
deriving DecidableEq, Repr

/-- A space or a tab. -/
def isBlank (c : Char) : Bool := c == ' ' || c == '\t'

/-- A line without the blanks at its two ends. -/
def trim (cs : List Char) : List Char := ((cs.dropWhile isBlank).reverse.dropWhile isBlank).reverse

/-- A line without its comment: a comment starts with `;` (R78). -/
def stripComment (cs : List Char) : List Char := cs.takeWhile (· != ';')

/-- The parts of a text between its commas. -/
def splitCommas : List Char → List (List Char)
  | [] => [[]]
  | c :: cs =>
    if c == ',' then [] :: splitCommas cs
    else
      match splitCommas cs with
      | [] => [[c]]
      | part :: parts => (c :: part) :: parts

/-- The value of a decimal digit. -/
def decimalDigit (c : Char) : Option Nat :=
  if 48 ≤ c.toNat ∧ c.toNat ≤ 57 then some (c.toNat - 48) else none

/-- The value of a hexadecimal digit, in either case. -/
def hexDigit (c : Char) : Option Nat :=
  if 48 ≤ c.toNat ∧ c.toNat ≤ 57 then some (c.toNat - 48)
  else if 65 ≤ c.toNat ∧ c.toNat ≤ 70 then some (c.toNat - 55)
  else if 97 ≤ c.toNat ∧ c.toNat ≤ 102 then some (c.toNat - 87)
  else none

/-- A digit string read from the left, after the number `acc`. -/
def digits (base : Nat) (digit : Char → Option Nat) : Nat → List Char → Option Nat
  | acc, [] => some acc
  | acc, c :: cs =>
    match digit c with
    | some d => digits base digit (acc * base + d) cs
    | none => none

/-- A number: decimal, or hexadecimal with a `0x` prefix (R78). -/
def number : List Char → Option Nat
  | [] => none
  | '0' :: 'x' :: [] => none
  | '0' :: 'x' :: c :: cs => digits 16 hexDigit 0 (c :: cs)
  | cs => digits 10 decimalDigit 0 cs

/-- A level operand of SET_LEVEL: a code 0 to 3 or a name (R83). -/
def levelOperand (cs : List Char) : Option Level :=
  if cs = ['B', 'L', 'A', 'C', 'K'] then some .black
  else if cs = ['D', 'A', 'R', 'K', '_', 'G', 'R', 'E', 'Y'] then some .darkGrey
  else if cs = ['L', 'I', 'G', 'H', 'T', '_', 'G', 'R', 'E', 'Y'] then some .lightGrey
  else if cs = ['W', 'H', 'I', 'T', 'E'] then some .white
  else
    match number cs with
    | some 0 => some .black
    | some 1 => some .darkGrey
    | some 2 => some .lightGrey
    | some 3 => some .white
    | _ => none

/-- SET_PIXEL of three numbers, if the pattern fits its field. -/
def setPixelLine (x y p : Option Nat) : Option Instr :=
  match x, y, p with
  | some x, some y, some p => if p < 256 then some (.setPixel x y (BitVec.ofNat 8 p)) else none
  | _, _, _ => none

/-- The command of a mnemonic and its operands: the forms of R78, and SET_LEVEL of R83. -/
def lineInstr (mnemonic : List Char) (ops : List (List Char)) : Option Instr :=
  if mnemonic = ['I', 'N', 'I', 'T'] then
    match ops with | [] => some .init | _ => none
  else if mnemonic = ['C', 'L', 'E', 'A', 'R'] then
    match ops.map number with | [some rs, some re] => some (.clear rs re) | _ => none
  else if mnemonic = ['B', 'L', 'A', 'N', 'K'] then
    match ops with | [] => some .blank | _ => none
  else if mnemonic = ['S', 'E', 'T', '_', 'P', 'I', 'X', 'E', 'L'] then
    match ops.map number with | [x, y, p] => setPixelLine x y p | _ => none
  else if mnemonic = ['L', 'O', 'A', 'D', '_', 'I', 'M', 'A', 'G', 'E'] then
    match ops.map number with | [some len] => some (.loadImage len) | _ => none
  else if mnemonic = ['R', 'E', 'F', 'R', 'E', 'S', 'H'] then
    match ops.map number with | [some 0] => some (.refresh false) | [some 1] => some (.refresh true) | _ => none
  else if mnemonic = ['H', 'A', 'L', 'T'] then
    match ops with | [] => some .halt | _ => none
  else if mnemonic = ['R', 'E', 'A', 'D', '_', 'B', 'Y', 'T', 'E'] then
    match ops.map number with | [some addr] => some (.readByte addr) | _ => none
  else if mnemonic = ['G', 'E', 'T', '_', 'P', 'I', 'X', 'E', 'L'] then
    match ops.map number with | [some x, some y] => some (.getPixel x y) | _ => none
  else if mnemonic = ['S', 'E', 'T', '_', 'L', 'E', 'V', 'E', 'L'] then
    match ops with
    | [x, y, l] =>
      match number x, number y, levelOperand l with
      | some x, some y, some l => some (setLevel x y l)
      | _, _, _ => none
    | _ => none
  else none

/-- The operands of the text after the mnemonic: none, or parts separated by commas (R78). -/
def lineOperands (cs : List Char) : List (List Char) :=
  match trim cs with
  | [] => []
  | rest => (splitCommas rest).map trim

/-- A line's command encoded (R71), or rejected when it is none or an operand does not fit its field width (R78). -/
def assembled : Option Instr → AsmLine
  | some i => if i.wellFormed then .word (encode i) else .rejected
  | none => .rejected

/-- One line assembled (R78). -/
def assembleLine (line : List Char) : AsmLine :=
  match trim (stripComment line) with
  | [] => .empty
  | text => assembled (lineInstr (text.takeWhile (! isBlank ·)) (lineOperands (text.dropWhile (! isBlank ·))))

end Sys2Proof.Machine
end

