-- ==== Sys2Proof/Safety.lean ====
section
/-! DEFINITION. Safety.lean: the terms claims are made in: the invariant of the machine, finished and stuck states
(70_reset_and_hazards.md R240), the requests a command issues (30_encoding.md R81, 41_sequencer.md R152, R156), a completed
command's state, the reserved bits of each format, and what of a state can ever be observed (10_state.md R23, R25, R29). -/

namespace Sys2Proof.Machine

/-- SEQ is a row of INIT's table (41_sequencer.md R152). -/
def Seq.isInit : Seq → Bool
  | .initBus | .initLines | .initZero | .initRstHi | .initRstLo | .initRstRel | .initCmds => true
  | .idle | .exec | .refBlank | .refWindow | .refData | .refUnblank => false

/-- SEQ is a row of REFRESH's table (41_sequencer.md R154). -/
def Seq.isRefresh : Seq → Bool
  | .refBlank | .refWindow | .refData | .refUnblank => true
  | .idle | .exec | .initBus | .initLines | .initZero | .initRstHi | .initRstLo | .initRstRel | .initCmds => false

/-- SEQ is a row of INIT's table after the zero-fill. -/
def Seq.pastZeroFill : Seq → Bool
  | .initRstHi | .initRstLo | .initRstRel | .initCmds => true
  | .idle | .exec | .initBus | .initLines | .initZero | .refBlank | .refWindow | .refData | .refUnblank => false

/-- FB and SRC are in canonical form and list no address outside their spaces (20_memory.md R50). -/
structure State.MemoryOk (s : State) : Prop where
  fb_wf     : s.fb.wf
  fb_below  : s.fb.below Config.fbSize
  src_wf    : s.src.wf
  src_below : s.src.below Config.srcSpace

/-- Control: SEQ = IDLE exactly when BUSY = 0 (10_state.md R29); between steps a running command waits on the request of its row,
and on no other (20_memory.md R63); INITIALIZING exactly while INIT runs, and a REFRESH runs only in READY (10_state.md R21). -/
structure State.ControlOk (s : State) : Prop where
  idle_iff         : s.busy = false ↔ s.seq = .idle
  idle_quiet       : s.busy = false → s.outstanding = none
  waiting          : s.busy = true → (rowRequest s).isSome = true ∧ s.outstanding = rowRequest s
  initializing_iff : s.drv = .initializing ↔ s.seq.isInit = true
  refresh_ready    : s.seq.isRefresh = true → s.drv = .ready

/-- The two lines: not driven before INIT's line configuration, the reset pulse's levels during it, driven with RST High after it
(10_state.md R27, R28; 41_sequencer.md R152). -/
structure State.LinesOk (s : State) : Prop where
  undriven  : s.drv = .uninit ∨ s.seq = .initBus → s.dc = .z ∧ s.rst = .z
  pulseHigh : s.seq = .initRstHi ∨ s.seq = .initRstRel → s.dc = .low ∧ s.rst = .high
  pulseLow  : s.seq = .initRstLo → s.dc = .low ∧ s.rst = .low
  driven    : s.drv = .ready ∨ s.seq = .initCmds → s.dc ≠ .z ∧ s.rst = .high
  failed    : s.drv = .failed → s.dc = .z ∧ s.rst = .z ∨ s.dc ≠ .z ∧ s.rst = .high

/-- The values: FB is zero from the zero-fill to INIT's end (40_framebuffer.md R101), DIRTY is the sentinel or, in READY, the whole
frame (10_state.md R26), and an error's response carries the data 0x00 (10_state.md R24). -/
structure State.ValuesOk (s : State) : Prop where
  zeroed   : s.seq.pastZeroFill = true → s.fb = []
  dirty    : s.dirtyMin = 0xFFFF#16 ∧ s.dirtyMax = 0xFFFF#16 ∨
    s.drv = .ready ∧ s.dirtyMin = 0#16 ∧ s.dirtyMax = 159#16
  response : s.rspStatus ≠ .ok → s.rspData = 0x00#8
  loadMap  : s.params.loadMap.bijective

/-- The invariant of the machine. -/
structure State.Inv (s : State) : Prop where
  memory  : s.MemoryOk
  control : s.ControlOk
  lines   : s.LinesOk
  values  : s.ValuesOk

/-- The Host offers a command, now or in a coming input. -/
def State.hostOffers (s : State) : Bool :=
  s.offered.isSome || s.inputs.any fun i => match i with
    | .offer _ => true
    | .srcWrite _ _ | .txDone _ | .reset | .pass => false

/-- A finished state (70_reset_and_hazards.md R240). -/
def State.Finished (s : State) : Prop :=
  s.busy = false ∧ s.seq = .idle ∧ s.outstanding = none ∧ s.hostOffers = false

/-- The Transport answers the outstanding request: an answer comes, and no reset abandons the request before it. -/
def State.willBeAnswered (s : State) : Bool :=
  (s.inputs.takeWhile (· != .reset)).any fun i => match i with
    | .txDone _ => true
    | .offer _ | .srcWrite _ _ | .reset | .pass => false

/-- A stuck state: BUSY = 1 with an outstanding request that the Transport never answers, whatever else is to come
(70_reset_and_hazards.md R240). -/
def State.Stuck (s : State) : Prop := s.busy = true ∧ s.outstanding.isSome = true ∧ s.willBeAnswered = false

/-- The state a completion leaves: the response is written and recorded, BUSY is 0 and SEQ is IDLE (00_scope.md R12,
60_exceptions.md R203). -/
def State.responded (status : Status) (data : Byte) (s : State) : State :=
  { s with
    rspStatus := status
    rspData := data
    busy := false
    seq := .idle
    responses := s.responses ++ [{ status := status, data := data }] }

/-- An INIT completed on the way from s to t: READY with the response OK, or FAILED with a transport error (10_state.md R21). -/
def initCompleted (s t : State) : Prop :=
  t.busy = false ∧
    (t.drv = .ready ∧ t.responses = s.responses ++ [{ status := .ok, data := 0x00#8 }] ∨
      t.drv = .failed ∧ ∃ e, (e = .errTransportInit ∨ e = .errTransportWrite) ∧
        t.responses = s.responses ++ [{ status := e, data := 0x00#8 }])

/-- The name of a level in an assembler line (30_encoding.md R83). -/
def levelName : Level → List Char
  | .black => ['B', 'L', 'A', 'C', 'K']
  | .darkGrey => ['D', 'A', 'R', 'K', '_', 'G', 'R', 'E', 'Y']
  | .lightGrey => ['L', 'I', 'G', 'H', 'T', '_', 'G', 'R', 'E', 'Y']
  | .white => ['W', 'H', 'I', 'T', 'E']

/-- The reserved bits of each opcode's format (30_encoding.md R71): the bits of cmd[27:0] that no operand has. -/
def reservedBits (opcode : Nat) : Word :=
  match opcode with
  | 1 => 0x0FFFFFFF#32
  | 2 => 0x00000FFF#32
  | 3 => 0x0FFFFFFF#32
  | 4 => 0x00000F00#32
  | 5 => 0x0FFF0000#32
  | 6 => 0x0FFFFFFE#32
  | 7 => 0x0FFFFFFF#32
  | 8 => 0x0FFF8000#32
  | 9 => 0x00000FFF#32
  | _ => 0x00000000#32

/-- A list of Transport answers as coming inputs. -/
def answers (oks : List Bool) : List Input := oks.map .txDone

/-- The TRANSMIT of one INIT_SEQ entry (30_encoding.md R81). -/
def initWrite (e : InitEntry) : Request := .transmit [e.value] 8 (if e.isData then .high else .low)

/-- The TRANSMIT of raster chunk k of a framebuffer: FB[512k .. 512k + 511], DC High (30_encoding.md R81). -/
def chunkWrite (fb : Memory) (k : Nat) : Request :=
  .transmit ((List.range 512).map fun j => fb.read (512 * k + j)) 4096 .high

/-- The requests of one REFRESH, in order (41_sequencer.md R156). -/
def refreshRequests (suppress : Bool) (p : Params) (fb : Memory) : List Request :=
  (if suppress then [] else [.transmit [0x28#8] 8 .low]) ++
    .transmit p.windowBlock.toList 112 .low :: (List.range 40).map (chunkWrite fb) ++
    [.transmit [0x29#8] 8 .low]

/-- The events of answered requests, all issued with the same level of RST. -/
def answeredEvents (rst : Pin) (requests : List Request) (oks : List Bool) : List Event :=
  List.zipWith (fun r ok => { request := r, rst := rst, answer := some (r.answer ok) }) requests oks

/-- The events of INIT up to the end of the reset pulse: BUSINIT answered ok with RST still as before, then SLEEP 80 with RST High,
SLEEP 80 with RST Low, SLEEP 150 with RST High (41_sequencer.md R152; 95_test_vectors.md S13). -/
def pulseEvents (rstBefore : Pin) : List Event :=
  [ { request := .busInit 10000000 0 7, rst := rstBefore, answer := some .ok },
    { request := .sleep 80, rst := .high, answer := some .done },
    { request := .sleep 80, rst := .low, answer := some .done },
    { request := .sleep 150, rst := .high, answer := some .done } ]

/-- DC after the first entries of INIT_SEQ were written: the level of the last one, Low if there was none. -/
def dcAfter (entries : List InitEntry) : Pin :=
  match entries.getLast? with
  | some e => if e.isData then .high else .low
  | none => .low

/-- A request the Block may issue: BUSINIT and SLEEP with the fixed values, and the TRANSMITs of 30_encoding.md R81. -/
def Emittable (p : Params) (fb : Memory) (r : Request) : Prop :=
  r = .busInit 10000000 0 7 ∨ r = .sleep 80 ∨ r = .sleep 150 ∨
    (∃ e ∈ p.initSeq, r = initWrite e) ∨
    r = .transmit [0x28#8] 8 .low ∨ r = .transmit p.windowBlock.toList 112 .low ∨
    (∃ k < 40, r = chunkWrite fb k) ∨ r = .transmit [0x29#8] 8 .low

/-- The next byte written by a loop over ascending addresses: the byte-by-byte form of a bulk write. -/
def writeEach (f : Nat → Byte) (start n : Nat) (m : Memory) : Memory :=
  (List.range n).foldl (fun m j => m.write (start + j) (f (start + j))) m

/-- FB holds values a command can read: DRV_STATE is READY, or the zero-fill has been done or a REFRESH runs. -/
def State.fbLive (s : State) : Bool :=
  s.drv == .ready || s.seq.pastZeroFill || s.seq.isRefresh

/-- What of a state can ever be observed: everything, but CMD while BUSY = 0, INIT_IDX outside INIT_CMDS, CHUNK outside REF_DATA,
WERR outside a REFRESH and FB before INIT's zero-fill or after a failed INIT, which are blotted out (10_state.md R23, R25, R29). -/
def State.observable (s : State) : State :=
  { s with
    cmd := if s.busy then s.cmd else 0#32
    initIdx := if s.seq = .initCmds then s.initIdx else 0
    chunk := if s.seq = .refData then s.chunk else 0
    werr := if s.seq.isRefresh then s.werr else false
    fb := if s.fbLive then s.fb else [] }

/-- What of a step's outcome can ever be observed. -/
def observableOutcome : Host.Outcome State Fault Refusal → Host.Outcome State Fault Refusal
  | .next t => .next t.observable
  | .fault r => .fault r
  | .refused r => .refused r

end Sys2Proof.Machine
end

