-- ==== Sys2Proof/Certificates/Slice0/Obligations.lean ====
section
/-! DEFINITION. Certificates/Slice0/Obligations.lean: the statements for the provers. `s.responded status data` is the state a
completed command leaves: s with that response, BUSY = 0 and SEQ = IDLE, and nothing else changed. Equations with it are frames of
the whole state. -/

open Sys2Proof Sys2Proof.Machine

/-! ### Encoding -/

/-- Every well-formed command survives encoding: no operand bit is dropped (30_encoding.md R71, R73, R76). -/
def Obligations.DecodeOfEncodeIsTheCommand : Prop :=
  ∀ i : Instr, i.WellFormed → decode (encode i) = .command i

/-- Every legal word is the encoding of the command it decodes to: a word has one meaning (30_encoding.md R71, R76). -/
def Obligations.EncodeOfDecodeIsTheWord : Prop :=
  ∀ (w : Word) (i : Instr), decode w = .command i → i.WellFormed ∧ encode i = w

/-- Words written out by hand in 95_test_vectors.md section 2.1, one for each command. -/
def Obligations.HandWrittenWordsDecode : Prop :=
  decode 0x10000000#32 = .command .init ∧
  decode 0x20103000#32 = .command (.clear 1 3) ∧
  decode 0x30000000#32 = .command .blank ∧
  decode 0x4EF9F008#32 = .command (.setPixel 239 159 0x08#8) ∧
  decode 0x50002580#32 = .command (.loadImage 9600) ∧
  decode 0x60000001#32 = .command (.refresh true) ∧
  decode 0x70000000#32 = .command .halt ∧
  decode 0x80004FFF#32 = .command (.readByte 20479) ∧
  decode 0x9EF9F000#32 = .command (.getPixel 239 159)

/-- 30_encoding.md R74: a word with opcode 0x0 or 0xA to 0xF is illegal; offered to a ready port it completes with ERR_OPCODE and
changes nothing but the response, CMD and the port. -/
def Obligations.ReservedOpcodesCompleteWithErrOpcode : Prop :=
  ∀ w : Word, bits w 31 28 = 0 ∨ 10 ≤ bits w 31 28 →
    decode w = .illegal .reservedOpcode ∧
    ∀ s : State, s.busy = false → s.offered = some w → s.inputs.head? ≠ some .reset →
      step s = .next { s.responded .errOpcode 0x00#8 with offered := none, cmd := w }

/-- 30_encoding.md R75: a word with a legal opcode and any reserved bit of its format set is illegal; offered to a ready port it
completes with ERR_OPCODE and changes nothing but the response, CMD and the port. -/
def Obligations.ReservedFieldsCompleteWithErrOpcode : Prop :=
  ∀ w : Word, 1 ≤ bits w 31 28 → bits w 31 28 ≤ 9 → w &&& reservedBits (bits w 31 28) ≠ 0#32 →
    decode w = .illegal .reservedField ∧
    ∀ s : State, s.busy = false → s.offered = some w → s.inputs.head? ≠ some .reset →
      step s = .next { s.responded .errOpcode 0x00#8 with offered := none, cmd := w }

/-! ### The step, the ports and reset -/

/-- A step with BUSY = 0 takes the offered word: CMD holds it, BUSY is 1, SEQ is the command's first step, and the command it
decodes to runs (10_state.md R33), unless a reset comes next (BlockResetTakesTheResetValues says what happens then). The per-command
statements reach a run through this one. That acceptance and the command's run are one step is the model's choice: log entry 2. -/
def Obligations.StepRunsTheOfferedCommand : Prop :=
  ∀ (s : State) (w : Word) (i : Instr), s.busy = false → s.offered = some w → s.inputs.head? ≠ some .reset →
    decode w = .command i →
    step s = exec i { s with offered := none, cmd := w, busy := true, seq := firstSeq (.command i) }

/-- The word of every well-formed command, placed where the step fetches, is run by the very next step (10_state.md R33;
the model's choice of what placing a word is: log entry 7). -/
def Obligations.FetchWordIsRunByTheNextStep : Prop :=
  ∀ (i : Instr) (s : State), i.WellFormed →
    decodeTableWord 32 (encode i).toNat = some i ∧
    step (s.withFetchWord 32 (encode i).toNat) =
      exec i { s with
        offered := none, cmd := encode i, busy := true, seq := firstSeq (.command i), outstanding := none,
        inputs := s.inputs.dropWhile (· == .reset) }

/-- A step with BUSY = 0 and no offered word is one move of the outside world: none, the Host offering a word, the Host writing one
byte of SRC, an answer to no request, which is ignored, or nothing (10_state.md R33, 20_memory.md R51, 70_reset_and_hazards.md R230).
That these moves come as a list in State, one a step, is the model's choice: log entries 1 and 2. -/
def Obligations.IdleBlockTakesOutsideMoves : Prop :=
  ∀ s : State, s.busy = false → s.offered = none →
    (s.inputs = [] → step s = .next s) ∧
    (∀ w rest, s.inputs = .offer w :: rest → step s = .next { s with offered := some w, inputs := rest }) ∧
    (∀ ok rest, s.inputs = .txDone ok :: rest → step s = .next { s with inputs := rest }) ∧
    (∀ rest, s.inputs = .pass :: rest → step s = .next { s with inputs := rest }) ∧
    (∀ a v rest, s.inputs = .srcWrite a v :: rest → s.src.wf →
      ∃ t, step s = .next t ∧ { s with src := t.src, inputs := rest } = t ∧
        ∀ b, t.src.read b = if b = a.toNat then v else s.src.read b)

/-- The reset input, in any situation: the state takes the reset values the spec gives, the running command gets no response, a word
that an idle block was about to take is taken and aborted without a response, an outstanding request is abandoned without an answer,
and nothing else of the Host changes (70_reset_and_hazards.md R230, 60_exceptions.md R206). CMD, INIT_IDX, CHUNK, WERR and FB are
unspecified there and not claimed here. Where a reset lands beside an acceptance, and what the records keep, are the model's choices:
log entries 10 and 11. -/
def Obligations.BlockResetTakesTheResetValues : Prop :=
  ∀ (s : State) (rest : List Input), s.inputs = .reset :: rest →
    ∃ t, step s = .next t ∧
      { t with
        drv := .uninit, busy := false, rspStatus := .ok, rspData := 0x00#8, dirtyMin := 0xFFFF#16, dirtyMax := 0xFFFF#16,
        dc := .z, rst := .z, seq := .idle, offered := (if s.busy then s.offered else none), outstanding := none, src := s.src,
        inputs := rest, params := s.params, responses := s.responses } = t ∧
      statusWord t = 0x00000000#32 ∧ dirtyWord t = 0xFFFFFFFF#32 ∧ cmdReady t = true ∧
      t.trace = s.trace ++
        (match s.outstanding with
         | some r => [{ request := r, rst := s.rst, answer := none }]
         | none => [])

/-- The state right after reset as the Host sees it (10_state.md R20, R30, R32; 95_test_vectors.md V-R1). -/
def Obligations.ResetStateAsTheHostSeesIt : Prop :=
  hostView State.reset =
      { status := 0x00000000#32, dirty := 0xFFFFFFFF#32, dc := .z, rst := .z, cmdReady := true } ∧
    State.reset.seq = .idle ∧ State.reset.outstanding = none

/-- While a request is outstanding: without an answer the block stays as it is, BUSY (20_memory.md R63 item 6); a word offered now
is not accepted, it stands on the port, in place of one that stood there (10_state.md R33, 60_exceptions.md R206,
70_reset_and_hazards.md R233); a Host write of SRC, which R234 gives a model no move for, is refused by name (the refusal is the
model's form of it: log entry 9). The moves as a list in State are the model's choice: log entry 1. -/
def Obligations.WaitingBlockTakesNoCommand : Prop :=
  ∀ (s : State) (r : Request), s.busy = true → s.outstanding = some r → rowRequest s = some r →
    (s.inputs = [] → step s = .next s) ∧
    (∀ rest, s.inputs = .pass :: rest → step s = .next { s with inputs := rest }) ∧
    (∀ w rest, s.inputs = .offer w :: rest → step s = .next { s with offered := some w, inputs := rest }) ∧
    (∀ a v rest, s.inputs = .srcWrite a v :: rest → step s = .refused (.srcWriteWhileBusy a))

/-- 10_state.md R30 with the codes of R21 and 30_encoding.md R82: every field of STATUS. -/
def Obligations.StatusWordFields : Prop :=
  ∀ s : State,
    bits (statusWord s) 0 0 = (if s.busy then 1 else 0) ∧
    bits (statusWord s) 2 1 =
      (match s.drv with
       | .uninit => 0
       | .initializing => 1
       | .ready => 2
       | .failed => 3) ∧
    bits (statusWord s) 3 3 = 0 ∧
    bits (statusWord s) 7 4 =
      (match s.rspStatus with
       | .ok => 0
       | .errTransportInit => 1
       | .errTransportWrite => 2
       | .errBounds => 3
       | .errLength => 4
       | .errLevel => 5
       | .errState => 6
       | .errOpcode => 7) ∧
    bits (statusWord s) 15 8 = s.rspData.toNat ∧
    bits (statusWord s) 31 16 = 0 ∧
    statusWord State.reset = 0x00000000#32

/-- 10_state.md R32: DIRTY is {DIRTY_MAX, DIRTY_MIN}, 0xFFFFFFFF after block reset. -/
def Obligations.DirtyWordFields : Prop :=
  ∀ s : State,
    bits (dirtyWord s) 15 0 = s.dirtyMin.toNat ∧ bits (dirtyWord s) 31 16 = s.dirtyMax.toNat ∧
    dirtyWord State.reset = 0xFFFFFFFF#32

/-- A finished state stays finished, with the same responses and request events, whatever Transport, SRC writes and reset still do,
and stays exactly as it is with no coming move. A stuck state, BUSY with a request that is never answered, stays stuck on that request,
with the same responses and request events, at every step but a reset (and but a Host write of SRC, which is refused), and stays exactly
as it is with no coming move (70_reset_and_hazards.md R240, 20_memory.md R63 item 6). The coming moves as a list in State are the
model's choice: log entry 1. -/
def Obligations.FinishedAndStuckStatesStay : Prop :=
  (∀ s : State, s.Finished → s.inputs = [] → step s = .next s) ∧
  (∀ s : State, s.Finished → ∃ t, step s = .next t ∧ t.Finished ∧ t.responses = s.responses ∧ t.trace = s.trace) ∧
  (∀ s : State, s.Stuck → (rowRequest s).isSome = true → s.inputs = [] → step s = .next s) ∧
  (∀ s : State, s.Stuck → (rowRequest s).isSome = true → s.inputs.head? ≠ some .reset →
    (∀ a v rest, s.inputs ≠ .srcWrite a v :: rest) →
    ∃ t, step s = .next t ∧ t.Stuck ∧ { s with offered := t.offered, inputs := s.inputs.tail } = t)

/-! ### Framebuffer Store commands -/

/-- Every command but INIT and HALT, with any operands, is rejected outside READY (60_exceptions.md R201, R202). -/
def Obligations.NotReadyCommandsAreRejected : Prop :=
  ∀ (i : Instr) (s : State), i ≠ .init → i ≠ .halt → s.drv ≠ .ready →
    exec i s = .next (s.responded .errState 0x00#8)

/-- 40_framebuffer.md R102: encoding, state check, bounds check, and the rows cleared, padding included, and nothing else (none at
all for rs = re); CLEAR 0, 160 is BLANK. -/
def Obligations.ClearZeroesExactlyItsRows : Prop :=
  ∀ (rs re : Nat) (s : State),
    (rs < 256 → re < 256 →
      decode (BitVec.ofNat 32 (0x20000000 + rs * 0x100000 + re * 0x1000)) = .command (.clear rs re)) ∧
    (s.drv ≠ .ready → exec (.clear rs re) s = .next (s.responded .errState 0x00#8)) ∧
    (s.drv = .ready → ¬(rs ≤ re ∧ re ≤ 160) → exec (.clear rs re) s = .next (s.responded .errBounds 0x00#8)) ∧
    (s.drv = .ready → rs ≤ re → re ≤ 160 →
      ∃ t, exec (.clear rs re) s = .next t ∧ { s.responded .ok 0x00#8 with fb := t.fb } = t ∧
        (∀ y b, rs ≤ y → y < re → b < 128 → t.fb.read (128 * y + b) = 0x00#8) ∧
        (∀ a, a < 128 * rs ∨ 128 * re ≤ a → t.fb.read a = s.fb.read a)) ∧
    exec (.clear 0 160) s = exec .blank s

/-- 40_framebuffer.md R103: every framebuffer byte is 0x00, padding included, and READ_BYTE of it then returns 0x00; the effect of
CLEAR 0, 160. -/
def Obligations.BlankZeroesTheFrame : Prop :=
  decode 0x30000000#32 = .command .blank ∧
  ∀ s : State,
    (s.drv ≠ .ready → exec .blank s = .next (s.responded .errState 0x00#8)) ∧
    (s.drv = .ready →
      ∃ t, exec .blank s = .next t ∧ { s.responded .ok 0x00#8 with fb := t.fb } = t ∧
        (∀ a, t.fb.read a = if a < 20480 then 0x00#8 else s.fb.read a) ∧
        (∀ addr, addr < 20480 → exec (.readByte addr) t = .next (t.responded .ok 0x00#8)) ∧
        exec (.clear 0 160) s = .next t)

/-- 40_framebuffer.md R104: encoding, the checks in their order, and the one byte written; every other byte reads as before. -/
def Obligations.SetPixelWritesOneField : Prop :=
  ∀ (x y : Nat) (p : Byte) (s : State),
    (x < 256 → y < 256 →
      decode (BitVec.ofNat 32 (0x40000000 + x * 0x100000 + y * 0x1000 + p.toNat)) = .command (.setPixel x y p)) ∧
    (s.drv ≠ .ready → exec (.setPixel x y p) s = .next (s.responded .errState 0x00#8)) ∧
    (s.drv = .ready → 240 ≤ x ∨ 160 ≤ y → exec (.setPixel x y p) s = .next (s.responded .errBounds 0x00#8)) ∧
    (s.drv = .ready → x < 240 → y < 160 → p ∉ [0x00#8, 0x08#8, 0x10#8, 0x1C#8] →
      exec (.setPixel x y p) s = .next (s.responded .errLevel 0x00#8)) ∧
    (s.drv = .ready → x < 240 → y < 160 → p ∈ [0x00#8, 0x08#8, 0x10#8, 0x1C#8] → s.fb.wf →
      ∃ t, exec (.setPixel x y p) s = .next t ∧ { s.responded .ok 0x00#8 with fb := t.fb } = t ∧
        ∀ a, t.fb.read a =
          if a = 128 * y + 8 + x / 2 then
            (s.fb.read a &&& ~~~(0x1C#8 <<< (3 * (x % 2)))) ||| (p <<< (3 * (x % 2)))
          else s.fb.read a)

/-- 40_framebuffer.md R109: a successful SET_PIXEL changes no bit of FB outside the pixel's 3-bit field. -/
def Obligations.SetPixelKeepsEveryOtherBit : Prop :=
  ∀ (x y : Nat) (p : Byte) (s : State), s.drv = .ready → x < 240 → y < 160 →
    p ∈ [0x00#8, 0x08#8, 0x10#8, 0x1C#8] → s.fb.wf →
    ∃ t, exec (.setPixel x y p) s = .next t ∧
      ∀ a k, ¬(a = 128 * y + 8 + x / 2 ∧ 3 * (x % 2) + 2 ≤ k ∧ k ≤ 3 * (x % 2) + 4) →
        (t.fb.read a).getLsbD k = (s.fb.read a).getLsbD k

/-- 40_framebuffer.md R110: GET_PIXEL after SET_PIXEL returns the pattern, and GET_PIXEL of the neighbour (x ^ 1, y) returns what it
returned before. -/
def Obligations.SetPixelThenGetPixelReadsBack : Prop :=
  ∀ (x y : Nat) (p : Byte) (s : State), s.drv = .ready → x < 240 → y < 160 →
    p ∈ [0x00#8, 0x08#8, 0x10#8, 0x1C#8] → s.fb.wf →
    ∃ t u before after, exec (.setPixel x y p) s = .next t ∧
      exec (.getPixel x y) t = .next u ∧ u.rspStatus = .ok ∧ u.rspData = p ∧
      exec (.getPixel (x ^^^ 1) y) s = .next before ∧ exec (.getPixel (x ^^^ 1) y) t = .next after ∧
      before.rspStatus = .ok ∧ after.rspStatus = .ok ∧ after.rspData = before.rspData

/-- 40_framebuffer.md R107: encoding, checks, and the byte read; nothing but the response changes. -/
def Obligations.ReadByteReturnsTheByte : Prop :=
  ∀ (addr : Nat) (s : State),
    (addr < 32768 → decode (BitVec.ofNat 32 (0x80000000 + addr)) = .command (.readByte addr)) ∧
    (s.drv ≠ .ready → exec (.readByte addr) s = .next (s.responded .errState 0x00#8)) ∧
    (s.drv = .ready → 20480 ≤ addr → exec (.readByte addr) s = .next (s.responded .errBounds 0x00#8)) ∧
    (s.drv = .ready → addr < 20480 → exec (.readByte addr) s = .next (s.responded .ok (s.fb.read addr)))

/-- 40_framebuffer.md R108: encoding, checks, and the raw field in pattern position; nothing but the response changes. -/
def Obligations.GetPixelReturnsTheField : Prop :=
  ∀ (x y : Nat) (s : State),
    (x < 256 → y < 256 →
      decode (BitVec.ofNat 32 (0x90000000 + x * 0x100000 + y * 0x1000)) = .command (.getPixel x y)) ∧
    (s.drv ≠ .ready → exec (.getPixel x y) s = .next (s.responded .errState 0x00#8)) ∧
    (s.drv = .ready → 240 ≤ x ∨ 160 ≤ y → exec (.getPixel x y) s = .next (s.responded .errBounds 0x00#8)) ∧
    (s.drv = .ready → x < 240 → y < 160 →
      exec (.getPixel x y) s =
        .next (s.responded .ok ((s.fb.read (128 * y + 8 + x / 2) >>> (3 * (x % 2))) &&& 0x1C#8)))

/-- 40_framebuffer.md R105: encoding, checks, every framebuffer byte from the padding value or the conversion of its source byte
(R106), and DIRTY = (0, 159); nothing else changes. -/
def Obligations.LoadImageConvertsTheFrame : Prop :=
  ∀ (len : Nat) (s : State),
    (len < 65536 → decode (BitVec.ofNat 32 (0x50000000 + len)) = .command (.loadImage len)) ∧
    (s.drv ≠ .ready → exec (.loadImage len) s = .next (s.responded .errState 0x00#8)) ∧
    (s.drv = .ready → len ≠ 9600 → exec (.loadImage len) s = .next (s.responded .errLength 0x00#8)) ∧
    (s.drv = .ready → len = 9600 →
      ∃ t, exec (.loadImage len) s = .next t ∧
        { s.responded .ok 0x00#8 with fb := t.fb, dirtyMin := 0#16, dirtyMax := 159#16 } = t ∧
        (∀ i b, i < 160 → b < 8 → t.fb.read (128 * i + b) = 0xFF#8) ∧
        (∀ i j, i < 160 → j < 60 →
          t.fb.read (128 * i + 8 + 2 * j) = (conv s.params.loadMap (s.src.read (60 * i + j))).1 ∧
          t.fb.read (128 * i + 8 + 2 * j + 1) = (conv s.params.loadMap (s.src.read (60 * i + j))).2))

/-- 40_framebuffer.md R106: the four samples of a source byte; under every LOAD_MAP each destination field is the complement of the
pattern of the sample that the map puts there, bits [1:0] are 1, and a byte of four equal samples converts alike under every map. -/
def Obligations.ConversionFollowsTheLoadMap : Prop :=
  (∀ v : Byte,
    (sampleOf v .a).code.toNat = v.toNat % 4 ∧ (sampleOf v .b).code.toNat = v.toNat / 4 % 4 ∧
    (sampleOf v .c).code.toNat = v.toNat / 16 % 4 ∧ (sampleOf v .d).code.toNat = v.toNat / 64) ∧
  (∀ (m : LoadMap) (v : Byte),
    fieldOf (conv m v).1 0 = 0x1C#8 ^^^ pat (sampleOf v m.e0) ∧
    fieldOf (conv m v).1 3 = 0x1C#8 ^^^ pat (sampleOf v m.o0) ∧
    fieldOf (conv m v).2 0 = 0x1C#8 ^^^ pat (sampleOf v m.e1) ∧
    fieldOf (conv m v).2 3 = 0x1C#8 ^^^ pat (sampleOf v m.o1) ∧
    (conv m v).1 &&& 0x03#8 = 0x03#8 ∧ (conv m v).2 &&& 0x03#8 = 0x03#8) ∧
  (∀ m : LoadMap,
    conv m 0x00#8 = (0xFF#8, 0xFF#8) ∧ conv m 0x55#8 = (0xB7#8, 0xB7#8) ∧
    conv m 0xAA#8 = (0x6F#8, 0x6F#8) ∧ conv m 0xFF#8 = (0x03#8, 0x03#8)) ∧
  conv .default 0x1B#8 = (0xF7#8, 0x63#8)

/-- 40_framebuffer.md R111: after a successful LOAD_IMAGE every padding byte is 0xFF and every pixel byte has bits [1:0] = 0b11, its
two fields are complemented patterns of the samples LOAD_MAP places there, and it is one of 16 values. -/
def Obligations.LoadImageOutputShape : Prop :=
  ∀ s : State, s.drv = .ready →
    ∃ t, exec (.loadImage 9600) s = .next t ∧ t.rspStatus = .ok ∧
      (∀ i b, i < 160 → b < 8 → t.fb.read (128 * i + b) = 0xFF#8) ∧
      (∀ i j, i < 160 → j < 60 →
        (let v := t.fb.read (128 * i + 8 + 2 * j)
         fieldOf v 0 = 0x1C#8 ^^^ pat (sampleOf (s.src.read (60 * i + j)) s.params.loadMap.e0) ∧
         fieldOf v 3 = 0x1C#8 ^^^ pat (sampleOf (s.src.read (60 * i + j)) s.params.loadMap.o0)) ∧
        (let v := t.fb.read (128 * i + 8 + 2 * j + 1)
         fieldOf v 0 = 0x1C#8 ^^^ pat (sampleOf (s.src.read (60 * i + j)) s.params.loadMap.e1) ∧
         fieldOf v 3 = 0x1C#8 ^^^ pat (sampleOf (s.src.read (60 * i + j)) s.params.loadMap.o1))) ∧
      (∀ i b, i < 160 → 8 ≤ b → b < 128 →
        t.fb.read (128 * i + b) &&& 0x03#8 = 0x03#8 ∧
        t.fb.read (128 * i + b) ∈
          [0x03#8, 0x0F#8, 0x17#8, 0x1F#8, 0x63#8, 0x6F#8, 0x77#8, 0x7F#8,
           0xA3#8, 0xAF#8, 0xB7#8, 0xBF#8, 0xE3#8, 0xEF#8, 0xF7#8, 0xFF#8])

/-- An image of zero bytes makes every framebuffer byte 0xFF, whatever FB held and under every LOAD_MAP (95_test_vectors.md S8). -/
def Obligations.ZeroImageFillsTheFrameWithFF : Prop :=
  ∀ s : State, s.drv = .ready → (∀ a, a < 9600 → s.src.read a = 0x00#8) →
    ∃ t, exec (.loadImage 9600) s = .next t ∧ t.rspStatus = .ok ∧ dirtyWord t = 0x009F0000#32 ∧
      ∀ a, a < 20480 → t.fb.read a = 0xFF#8

/-- 30_encoding.md R79: the code, the pattern and its odd-pixel position of each level, bits [7:5] and [1:0] of every pattern zero, PAT
injective, and the four field values that are no level. -/
def Obligations.PatternTable : Prop :=
  Level.black.code = 0#2 ∧ Level.darkGrey.code = 1#2 ∧ Level.lightGrey.code = 2#2 ∧ Level.white.code = 3#2 ∧
  pat .black = 0x00#8 ∧ pat .darkGrey = 0x08#8 ∧ pat .lightGrey = 0x10#8 ∧ pat .white = 0x1C#8 ∧
  pat .black <<< 3 = 0x00#8 ∧ pat .darkGrey <<< 3 = 0x40#8 ∧ pat .lightGrey <<< 3 = 0x80#8 ∧ pat .white <<< 3 = 0xE0#8 ∧
  (∀ l : Level, levelOfCode l.code = l ∧ pat l &&& 0xE3#8 = 0x00#8 ∧ pat l ∉ [0x04#8, 0x0C#8, 0x14#8, 0x18#8]) ∧
  (∀ l m : Level, pat l = pat m → l = m)

/-- 30_encoding.md R80: the legal patterns, FieldOf at its two shifts, and LevelOf, the inverse of PAT on legal patterns, which gives
no level for any other value. -/
def Obligations.LegalPatternsAndLevelOf : Prop :=
  (∀ v : Byte, legalPat v = true ↔ v ∈ [0x00#8, 0x08#8, 0x10#8, 0x1C#8]) ∧
  (∀ b : Byte, fieldOf b 0 = b &&& 0x1C#8 ∧ fieldOf b 3 = (b >>> 3) &&& 0x1C#8) ∧
  levelOf 0x00#8 = some .black ∧ levelOf 0x08#8 = some .darkGrey ∧ levelOf 0x10#8 = some .lightGrey ∧
  levelOf 0x1C#8 = some .white ∧
  (∀ l : Level, levelOf (pat l) = some l ∧ legalPat (pat l) = true) ∧
  (∀ v : Byte, legalPat v = true ↔ (levelOf v).isSome = true) ∧
  (∀ v ∈ [0x04#8, 0x0C#8, 0x14#8, 0x18#8], levelOf v = none)

/-- Every pixel has a field of its own, in a pixel byte of its own row (20_memory.md R52, R53; 40_framebuffer.md R100). -/
def Obligations.PixelsHaveTheirOwnFields : Prop :=
  (∀ x y : Nat, inPanel x y = true →
    8 ≤ pixAddr x y ∧ pixAddr x y < 20480 ∧ pixAddr x y / 128 = y ∧ 8 ≤ pixAddr x y % 128 ∧
      (pixShift x = 0 ∨ pixShift x = 3)) ∧
  (∀ x y x' y' : Nat, inPanel x y = true → inPanel x' y' = true →
    pixAddr x y = pixAddr x' y' → pixShift x = pixShift x' → x = x' ∧ y = y')

/-- CLEAR is the byte-by-byte loop of 40_framebuffer.md R102: 0x00 written to each address of its rows, ascending. -/
def Obligations.ClearIsTheLoopOfByteWrites : Prop :=
  ∀ (rs re : Nat) (s : State), s.drv = .ready → rs ≤ re → re ≤ 160 → s.fb.wf →
    exec (.clear rs re) s =
      .next { s.responded .ok 0x00#8 with fb := writeEach (fun _ => 0x00#8) (128 * rs) (128 * (re - rs)) s.fb }

/-- LOAD_IMAGE is the byte-by-byte loop of 40_framebuffer.md R105 over the whole framebuffer, ascending. -/
def Obligations.LoadImageIsTheLoopOfByteWrites : Prop :=
  ∀ s : State, s.drv = .ready → s.MemoryOk →
    exec (.loadImage 9600) s =
      .next { s.responded .ok 0x00#8 with
        fb := writeEach (imageByte s) 0 20480 s.fb, dirtyMin := 0#16, dirtyMax := 159#16 }

/-! ### Panel Transport Driver commands -/

/-- 41_sequencer.md R155: HALT completes OK in every DRV_STATE and changes nothing but the response. -/
def Obligations.HaltOnlyResponds : Prop :=
  decode 0x70000000#32 = .command .halt ∧ ∀ s : State, exec .halt s = .next (s.responded .ok 0x00#8)

/-- INIT with every answer ok (whatever tx_ok the three SLEEP answers carry): the whole sequence of requests, RST levels and lines,
FB zero, DIRTY = -1, READY, response OK, and nothing else changed (41_sequencer.md R151, R152; 40_framebuffer.md R101). The recorded
RST level and the answer of a SLEEP are the model's record: log entries 10 and 12. -/
def Obligations.InitSucceeds : Prop :=
  ∀ (s : State) (a b c : Bool) (rest : List Input), s.drv = .uninit → s.outstanding = none →
    s.inputs = answers ([true, a, b, c] ++ List.replicate s.params.initSeq.length true) ++ rest →
    ∃ t, exec .init s = .next t ∧
      { s.responded .ok 0x00#8 with
        drv := .ready, fb := t.fb, dirtyMin := 0xFFFF#16, dirtyMax := 0xFFFF#16, dc := dcAfter s.params.initSeq, rst := .high,
        initIdx := s.params.initSeq.length, inputs := rest,
        trace := s.trace ++ pulseEvents s.rst ++
          answeredEvents .high (s.params.initSeq.map initWrite) (List.replicate s.params.initSeq.length true) } = t ∧
      ∀ x, t.fb.read x = if x < 20480 then 0x00#8 else s.fb.read x

/-- INIT whose BUSINIT fails: one request, FAILED, ERR_TRANSPORT_INIT; the lines, FB and DIRTY keep their values
(41_sequencer.md R151, 60_exceptions.md R201). -/
def Obligations.InitBusFailureFails : Prop :=
  ∀ (s : State) (rest : List Input), s.drv = .uninit → s.outstanding = none → s.inputs = .txDone false :: rest →
    exec .init s = .next { s.responded .errTransportInit 0x00#8 with
      drv := .failed, inputs := rest,
      trace := s.trace ++ [{ request := .busInit 10000000 0 7, rst := s.rst, answer := some .fail }] }

/-- INIT whose power-on write k fails: the later entries are not sent, FAILED, ERR_TRANSPORT_WRITE, FB zero, DIRTY = -1, RST High
(41_sequencer.md R151, 60_exceptions.md R201). That a SLEEP's tx_ok means nothing, and the recorded RST levels, are the model's: log
entries 12 and 10. -/
def Obligations.InitWriteFailureFails : Prop :=
  ∀ (s : State) (a b c : Bool) (k : Nat) (rest : List Input), s.drv = .uninit → s.outstanding = none →
    k < s.params.initSeq.length →
    s.inputs = answers ([true, a, b, c] ++ List.replicate k true ++ [false]) ++ rest →
    ∃ t, exec .init s = .next t ∧
      { s.responded .errTransportWrite 0x00#8 with
        drv := .failed, fb := t.fb, dirtyMin := 0xFFFF#16, dirtyMax := 0xFFFF#16,
        dc := dcAfter (s.params.initSeq.take (k + 1)), rst := .high, initIdx := k, inputs := rest,
        trace := s.trace ++ pulseEvents s.rst ++
          answeredEvents .high ((s.params.initSeq.take (k + 1)).map initWrite) (List.replicate k true ++ [false]) } = t ∧
      ∀ x, t.fb.read x = if x < 20480 then 0x00#8 else s.fb.read x

/-- INIT outside UNINIT is rejected and writes nothing (41_sequencer.md R151, 70_reset_and_hazards.md R232). -/
def Obligations.InitOutsideUninitIsRejected : Prop :=
  ∀ s : State, s.drv ≠ .uninit → exec .init s = .next (s.responded .errState 0x00#8)

/-- The rows of INIT's table, one answer at a time (41_sequencer.md R152): from a state that waits at a row, one answer and no
further one leads to the next row with a request, with that row's lines and request, or ends INIT: BUSINIT or a power-on write
answered fail, the last entry's write answered ok, and the last SLEEP where INIT_SEQ is empty. That a SLEEP's tx_ok means nothing is
the model's DEDUCED choice (log entry 12), and the recorded RST level its record (log entry 10). -/
def Obligations.InitRowsInOrder : Prop :=
  ∀ (s : State) (ok : Bool) (rest : List Input), s.busy = true → s.outstanding = rowRequest s →
    s.inputs = .txDone ok :: rest → (∀ ok' rest', rest ≠ .txDone ok' :: rest') →
    (s.seq = .initBus → ok = true →
      ∃ t, step s = .next t ∧
        { s with
          dc := .low, rst := .high, fb := t.fb, dirtyMin := 0xFFFF#16, dirtyMax := 0xFFFF#16, seq := .initRstHi,
          outstanding := some (.sleep 80), inputs := rest,
          trace := s.trace ++ [{ request := .busInit 10000000 0 7, rst := s.rst, answer := some .ok }] } = t ∧
        ∀ x, t.fb.read x = if x < 20480 then 0x00#8 else s.fb.read x) ∧
    (s.seq = .initRstHi →
      step s = .next { s with
        rst := .low, seq := .initRstLo, outstanding := some (.sleep 80), inputs := rest,
        trace := s.trace ++ [{ request := .sleep 80, rst := s.rst, answer := some .done }] }) ∧
    (s.seq = .initRstLo →
      step s = .next { s with
        rst := .high, seq := .initRstRel, outstanding := some (.sleep 150), inputs := rest,
        trace := s.trace ++ [{ request := .sleep 80, rst := s.rst, answer := some .done }] }) ∧
    (∀ e, s.seq = .initRstRel → s.params.initSeq[0]? = some e →
      step s = .next { s with
        dc := (if e.isData then .high else .low), seq := .initCmds, initIdx := 0, outstanding := some (initWrite e), inputs := rest,
        trace := s.trace ++ [{ request := .sleep 150, rst := s.rst, answer := some .done }] }) ∧
    (∀ e e', s.seq = .initCmds → ok = true → s.params.initSeq[s.initIdx]? = some e →
      s.params.initSeq[s.initIdx + 1]? = some e' →
      step s = .next { s with
        dc := (if e'.isData then .high else .low), initIdx := s.initIdx + 1, outstanding := some (initWrite e'), inputs := rest,
        trace := s.trace ++ [{ request := initWrite e, rst := s.rst, answer := some .ok }] }) ∧
    (s.seq = .initBus → ok = false →
      step s = .next { s.responded .errTransportInit 0x00#8 with
        drv := .failed, outstanding := none, inputs := rest,
        trace := s.trace ++ [{ request := .busInit 10000000 0 7, rst := s.rst, answer := some .fail }] }) ∧
    (s.seq = .initRstRel → s.params.initSeq = [] →
      step s = .next { s.responded .ok 0x00#8 with
        drv := .ready, initIdx := 0, outstanding := none, inputs := rest,
        trace := s.trace ++ [{ request := .sleep 150, rst := s.rst, answer := some .done }] }) ∧
    (∀ e, s.seq = .initCmds → ok = true → s.params.initSeq[s.initIdx]? = some e →
      s.params.initSeq[s.initIdx + 1]? = none →
      step s = .next { s.responded .ok 0x00#8 with
        drv := .ready, initIdx := s.initIdx + 1, outstanding := none, inputs := rest,
        trace := s.trace ++ [{ request := initWrite e, rst := s.rst, answer := some .ok }] }) ∧
    (∀ e, s.seq = .initCmds → ok = false → s.params.initSeq[s.initIdx]? = some e →
      step s = .next { s.responded .errTransportWrite 0x00#8 with
        drv := .failed, outstanding := none, inputs := rest,
        trace := s.trace ++ [{ request := initWrite e, rst := s.rst, answer := some .fail }] })

/-- REFRESH with any answers at all: the requests in their order and nothing else, whatever the answers; ERR_TRANSPORT_WRITE if any
of them failed, else OK; FB, DIRTY and DRV_STATE unchanged (41_sequencer.md R153, R154, R156). -/
def Obligations.RefreshSendsTheWholeFrame : Prop :=
  ∀ (s : State) (suppress : Bool) (oks : List Bool) (rest : List Input), s.drv = .ready → s.outstanding = none →
    oks.length = (if suppress then 42 else 43) → s.inputs = answers oks ++ rest →
    exec (.refresh suppress) s = .next { s.responded (if false ∈ oks then .errTransportWrite else .ok) 0x00#8 with
      dc := .low, chunk := 40, werr := decide (false ∈ oks), inputs := rest,
      trace := s.trace ++ answeredEvents s.rst (refreshRequests suppress s.params s.fb) oks }

/-- The rows of REFRESH's table, one answer at a time (41_sequencer.md R154): a failed answer sets WERR and changes nothing else. -/
def Obligations.RefreshRowsInOrder : Prop :=
  ∀ (s : State) (ok : Bool) (rest : List Input), s.busy = true → s.outstanding = rowRequest s →
    s.inputs = .txDone ok :: rest → (∀ ok' rest', rest ≠ .txDone ok' :: rest') →
    (s.seq = .refBlank →
      step s = .next { s with
        dc := .low, seq := .refWindow, werr := s.werr || !ok, inputs := rest,
        outstanding := some (.transmit s.params.windowBlock.toList 112 .low),
        trace := s.trace ++ answeredEvents s.rst [.transmit [0x28#8] 8 .low] [ok] }) ∧
    (s.seq = .refWindow →
      step s = .next { s with
        dc := .high, seq := .refData, chunk := 0, werr := s.werr || !ok, inputs := rest,
        outstanding := some (chunkWrite s.fb 0),
        trace := s.trace ++ answeredEvents s.rst [.transmit s.params.windowBlock.toList 112 .low] [ok] }) ∧
    (∀ k : Fin 40, s.seq = .refData → s.chunk = k.castSucc → k.val < 39 →
      step s = .next { s with
        dc := .high, chunk := k.succ, werr := s.werr || !ok, inputs := rest,
        outstanding := some (chunkWrite s.fb (k.val + 1)),
        trace := s.trace ++ answeredEvents s.rst [chunkWrite s.fb k.val] [ok] }) ∧
    (s.seq = .refData → s.chunk = 39 →
      step s = .next { s with
        dc := .low, seq := .refUnblank, chunk := 40, werr := s.werr || !ok, inputs := rest,
        outstanding := some (.transmit [0x29#8] 8 .low),
        trace := s.trace ++ answeredEvents s.rst [chunkWrite s.fb 39] [ok] }) ∧
    (s.seq = .refUnblank →
      step s = .next { s.responded (if s.werr || !ok then .errTransportWrite else .ok) 0x00#8 with
        werr := s.werr || !ok, inputs := rest, outstanding := none,
        trace := s.trace ++ answeredEvents s.rst [.transmit [0x29#8] 8 .low] [ok] })

/-- The 40 chunk payloads, concatenated, are FB[0 .. 20479] in ascending order, with no gap and no overlap (20_memory.md R54,
41_sequencer.md R156). -/
def Obligations.ChunksCoverTheFramebuffer : Prop :=
  ∀ s : State, (List.range 40).flatMap (chunkPayload s) = (List.range 20480).map s.fb.read

/-- Answers may come in any portions, from the acceptance of the command on: a command that stopped waiting, in the step that accepted
it or in a later one, and goes on with the answers that came later ends as the one that had them all at once (20_memory.md R63,
41_sequencer.md R152, R154). So the model's choice of what one step is (log entry 2) shows in no run's end. -/
def Obligations.AnswersMayComeInPortions : Prop :=
  (∀ (s u : State) (xs : List Bool) (y : Bool) (ys : List Bool) (rest : List Input),
    s.busy = true → s.outstanding = rowRequest s → (rowRequest s).isSome = true →
    step { s with inputs := answers xs } = .next u → u.busy = true →
    step { u with inputs := answers (y :: ys) ++ rest } = step { s with inputs := answers (xs ++ y :: ys) ++ rest }) ∧
  (∀ (s u : State) (w : Word) (xs : List Bool) (y : Bool) (ys : List Bool) (rest : List Input),
    s.busy = false → s.offered = some w → s.outstanding = none →
    step { s with inputs := answers xs } = .next u → u.busy = true →
    step { u with inputs := answers (y :: ys) ++ rest } = step { s with inputs := answers (xs ++ y :: ys) ++ rest })

/-! ### The whole machine -/

/-- Every command answers a next state from every state: errors are responses, not stops (60_exceptions.md R200). -/
def Obligations.EveryCommandAnswersNext : Prop :=
  ∀ (i : Instr) (s : State), ∃ t, exec i s = .next t

/-- One response per command: a command that completes appends exactly one response, the one RSP_STATUS and RSP_DATA show; one
that waits appends none (60_exceptions.md R200). For the command itself, and for every step: one that accepts a word or finds BUSY = 1
ends with BUSY = 1 and no response, or with BUSY = 0 and exactly that one; a reset, and a step that does neither, appends none. -/
def Obligations.OneResponsePerCommand : Prop :=
  (∀ (i : Instr) (s t : State), exec i s = .next t →
    t.busy = true ∧ t.responses = s.responses ∨
      t.busy = false ∧ t.responses = s.responses ++ [{ status := t.rspStatus, data := t.rspData }]) ∧
  (∀ s t : State, s.Inv → step s = .next t →
    (s.inputs.head? ≠ some .reset → s.busy = true ∨ s.offered.isSome = true →
      t.busy = true ∧ t.responses = s.responses ∨
        t.busy = false ∧ t.responses = s.responses ++ [{ status := t.rspStatus, data := t.rspData }]) ∧
    (s.inputs.head? = some .reset ∨ s.busy = false ∧ s.offered = none → t.busy = false ∧ t.responses = s.responses))

/-- Which command writes which state (10_state.md R21, R25 to R28): FB only INIT, CLEAR, BLANK, SET_PIXEL and LOAD_IMAGE; DIRTY only
INIT and LOAD_IMAGE; RST, DRV_STATE and INIT_IDX only INIT; DC, the transport events, CHUNK and WERR only INIT and REFRESH. -/
def Obligations.OnlyTheNamedCommandsWrite : Prop :=
  ∀ (i : Instr) (s t : State), exec i s = .next t →
    (i = .halt ∨ (∃ b, i = .refresh b) ∨ (∃ a, i = .readByte a) ∨ (∃ x y, i = .getPixel x y) → t.fb = s.fb) ∧
    (i ≠ .init → i ≠ .loadImage 9600 → t.dirtyMin = s.dirtyMin ∧ t.dirtyMax = s.dirtyMax) ∧
    (i ≠ .init → t.rst = s.rst ∧ t.drv = s.drv ∧ t.initIdx = s.initIdx) ∧
    (i ≠ .init → (∀ b, i ≠ .refresh b) →
      t.dc = s.dc ∧ t.trace = s.trace ∧ t.inputs = s.inputs ∧ t.outstanding = s.outstanding ∧ t.chunk = s.chunk ∧
        t.werr = s.werr)

/-- No command writes SRC, the offered word, CMD or the parameters (20_memory.md R51: the Block "never writes it"). -/
def Obligations.NoCommandWritesWhatIsTheHosts : Prop :=
  ∀ (i : Instr) (s t : State), exec i s = .next t →
    t.src = s.src ∧ t.offered = s.offered ∧ t.cmd = s.cmd ∧ t.params = s.params

/-- In FAILED every command but HALT completes with ERR_STATE, and no command leaves FAILED (60_exceptions.md R214,
70_reset_and_hazards.md R232). -/
def Obligations.FailedDriverRejectsAllButHalt : Prop :=
  ∀ (i : Instr) (s : State), s.drv = .failed →
    (i ≠ .halt → exec i s = .next (s.responded .errState 0x00#8)) ∧
    ∃ t, exec i s = .next t ∧ t.drv = .failed

/-- The transitions of DRV_STATE (10_state.md R21). UNINIT is left only by the acceptance of an INIT; an INIT is left INITIALIZING while
it runs (BUSY = 1), READY when it completes with OK and FAILED when it completes with an error, in the step that accepts it (one step
may take it to its end: log entry 2) or in a later one; READY and FAILED are left only by a block reset, which gives UNINIT. -/
def Obligations.DrvStateTransitions : Prop :=
  ∀ s t : State, s.Inv → step s = .next t →
    (s.inputs.head? = some .reset → t.drv = .uninit) ∧
    (s.inputs.head? ≠ some .reset →
      (s.drv = .uninit →
        t.drv = .uninit ∧ s.offered ≠ some (encode .init) ∨
          s.busy = false ∧ s.offered = some (encode .init) ∧
            (t.drv = .initializing ∧ t.busy = true ∧ t.responses = s.responses ∨ initCompleted s t)) ∧
      (s.drv = .initializing → t.drv = .initializing ∧ t.busy = true ∧ t.responses = s.responses ∨ initCompleted s t) ∧
      (s.drv = .ready → t.drv = .ready) ∧
      (s.drv = .failed → t.drv = .failed))

/-- The reset state meets the invariant. -/
def Obligations.ResetMeetsTheInvariant : Prop := State.reset.Inv

/-- Every step keeps the invariant: canonical memories, one request of the current row outstanding exactly while a command waits,
the lines of the reset pulse, zero FB through INIT, DIRTY's two values and zero data in error responses. -/
def Obligations.StepKeepsTheInvariant : Prop :=
  ∀ s t : State, s.Inv → step s = .next t → t.Inv

/-- Every step keeps both memories in canonical form and within their spaces (20_memory.md R50). -/
def Obligations.StepKeepsMemoriesCanonical : Prop :=
  ∀ s t : State, s.MemoryOk → step s = .next t → t.MemoryOk

/-- From a state of the invariant every step answers a next state, but for a Host write of SRC while BUSY = 1, a move R234 gives a model
none of: no reachable position is without a row, and nothing else is refused (41_sequencer.md R152, R154; 60_exceptions.md R200). The
refusal is the model's form of R234: log entry 9. -/
def Obligations.StepsAnswerNextButForBusySrcWrites : Prop :=
  ∀ s : State, s.Inv →
    (s.busy = true → ∀ a v rest, s.inputs = .srcWrite a v :: rest → step s = .refused (.srcWriteWhileBusy a)) ∧
    ((s.busy = false ∨ ∀ a v rest, s.inputs ≠ .srcWrite a v :: rest) → ∃ t, step s = .next t)

/-- 30_encoding.md R81, with the BUSINIT and SLEEP requests of 41_sequencer.md R152: every request event a step records is one of
the requests the block may issue, with the payload, bitLength and DC level given there; the record only grows. -/
def Obligations.OnlyTheListedRequestsAreIssued : Prop :=
  ∀ s t : State, s.Inv → step s = .next t →
    ∃ events, t.trace = s.trace ++ events ∧ ∀ e ∈ events, Emittable s.params s.fb e.request

/-- What the spec leaves unspecified is never observable (10_state.md R23, R25, R29): two states that differ only in CMD while BUSY =
0, in INIT_IDX, CHUNK or WERR where no row reads them, or in FB before the zero-fill or after a failed INIT, take steps that differ
only there. So no claim about a run depends on the model's choices of log entries 4 and 6. -/
def Obligations.UnspecifiedStateIsNeverObserved : Prop :=
  ∀ s₁ s₂ : State, s₁.MemoryOk → s₂.MemoryOk → s₁.observable = s₂.observable →
    observableOutcome (step s₁) = observableOutcome (step s₂)

/-! ### The assembler -/

/-- An operand in an assembler line is decimal, or hexadecimal after `0x` (30_encoding.md R78): every number's decimal digits and its
hexadecimal digits are read as that number. -/
def Obligations.NumeralsAreReadAsNumbers : Prop :=
  ∀ n : Nat, number (Nat.toDigits 10 n) = some n ∧ number ('0' :: 'x' :: Nat.toDigits 16 n) = some n

/-- The assembler's lines (30_encoding.md R78, R83). A line of each form assembles to the word of that command with those operands,
whatever numerals they are written as, and is rejected when an operand does not fit its field; SET_LEVEL assembles as SET_PIXEL with
its level's pattern. A comment does not matter, and every line that assembles gives the word of a well-formed command. The blanks and
the letter case of these lines are the model's choice: log entry 14. -/
def Obligations.LinesAssembleToTheirCommands : Prop :=
  (assembleLine "INIT".toList = .word (encode .init) ∧ assembleLine "BLANK".toList = .word (encode .blank) ∧
    assembleLine "HALT".toList = .word (encode .halt)) ∧
  (∀ (a : List Char) (n : Nat), number a = some n →
    assembleLine ("LOAD_IMAGE ".toList ++ a) = (if n < 65536 then .word (encode (.loadImage n)) else .rejected) ∧
    assembleLine ("READ_BYTE ".toList ++ a) = (if n < 32768 then .word (encode (.readByte n)) else .rejected) ∧
    assembleLine ("REFRESH ".toList ++ a) = (if n < 2 then .word (encode (.refresh (n == 1))) else .rejected)) ∧
  (∀ (a b : List Char) (m n : Nat), number a = some m → number b = some n →
    assembleLine ("CLEAR ".toList ++ a ++ ", ".toList ++ b) =
      (if m < 256 ∧ n < 256 then .word (encode (.clear m n)) else .rejected) ∧
    assembleLine ("GET_PIXEL ".toList ++ a ++ ", ".toList ++ b) =
      (if m < 256 ∧ n < 256 then .word (encode (.getPixel m n)) else .rejected)) ∧
  (∀ (a b c : List Char) (x y p : Nat), number a = some x → number b = some y → number c = some p →
    assembleLine ("SET_PIXEL ".toList ++ a ++ ", ".toList ++ b ++ ", ".toList ++ c) =
      (if x < 256 ∧ y < 256 ∧ p < 256 then .word (encode (.setPixel x y (BitVec.ofNat 8 p))) else .rejected)) ∧
  (∀ (a b c : List Char) (x y : Nat), number a = some x → number b = some y →
    (∀ l : Level, number c = some l.code.toNat ∨ c = levelName l →
      assembleLine ("SET_LEVEL ".toList ++ a ++ ", ".toList ++ b ++ ", ".toList ++ c) =
        (if x < 256 ∧ y < 256 then .word (encode (.setPixel x y (pat l))) else .rejected)) ∧
    (∀ n, number c = some n → 4 ≤ n →
      assembleLine ("SET_LEVEL ".toList ++ a ++ ", ".toList ++ b ++ ", ".toList ++ c) = .rejected)) ∧
  (∀ line note : List Char, assembleLine (line ++ ';' :: note) = assembleLine line) ∧
  (∀ (line : List Char) (w : Word), assembleLine line = .word w →
    ∃ i : Instr, i.WellFormed ∧ encode i = w ∧ decode w = .command i)

/-- The vector of 95_test_vectors.md section 2.1: SET_LEVEL 3, 2, LIGHT_GREY is SET_PIXEL 3, 2, 0x10 = 0x40302010 (30_encoding.md R83). -/
def Obligations.SetLevelLineAssembles : Prop :=
  assembleLine "SET_LEVEL 3, 2, LIGHT_GREY".toList = .word 0x40302010#32 ∧
  assembleLine "SET_PIXEL 3, 2, 0x10".toList = .word 0x40302010#32
end

