-- ==== Sys2Proof/Laws/Assembler.lean ====
section
/-! SUPPORT. Laws/Assembler.lean: what a line of each form comes to: a mnemonic and its operands, given that none of their characters is
a blank, a comma or a semicolon, as no character of a number or a level's name is. -/

namespace Sys2Proof.Machine

/-- No blank, comma or semicolon: a character of a mnemonic or of an operand. -/
def plainChar (c : Char) : Bool := !isBlank c && c != ',' && c != ';'

/-- A text that can stand as an operand. -/
def Plain (cs : List Char) : Prop := cs ≠ [] ∧ ∀ c ∈ cs, plainChar c = true

theorem plainChar_iff (c : Char) : plainChar c = true ↔ isBlank c = false ∧ c ≠ ',' ∧ c ≠ ';' := by
  simp [plainChar, and_assoc]

theorem plainChar_of_toNat (c : Char) (h : 48 ≤ c.toNat) (h' : c.toNat ≠ 59) : plainChar c = true := by
  have key : ∀ d : Char, d.toNat < 48 ∨ d.toNat = 59 → c ≠ d := by
    rintro d hd rfl
    omega
  rw [plainChar_iff]
  refine ⟨?_, key ',' (by decide), key ';' (by decide)⟩
  simp only [isBlank, Bool.or_eq_false_iff, beq_eq_false_iff_ne]
  exact ⟨key ' ' (by decide), key '\t' (by decide)⟩

theorem plainChar_of_decimalDigit (c : Char) (d : Nat) (h : decimalDigit c = some d) : plainChar c = true := by
  unfold decimalDigit at h
  split at h
  next hc => exact plainChar_of_toNat c hc.1 (by omega)
  next => cases h

theorem plainChar_of_hexDigit (c : Char) (d : Nat) (h : hexDigit c = some d) : plainChar c = true := by
  unfold hexDigit at h
  split at h
  next hc => exact plainChar_of_toNat c hc.1 (by omega)
  next =>
    split at h
    next hc => exact plainChar_of_toNat c (by omega) (by omega)
    next =>
      split at h
      next hc => exact plainChar_of_toNat c (by omega) (by omega)
      next => cases h

/-- A digit string that has a value holds digits only. -/
theorem plainChar_of_digits (base : Nat) (digit : Char → Option Nat)
    (hd : ∀ c d, digit c = some d → plainChar c = true) :
    ∀ (cs : List Char) (acc n : Nat), digits base digit acc cs = some n → ∀ c ∈ cs, plainChar c = true
  | [], _, _, _, c, hc => by cases hc
  | x :: xs, acc, n, h, c, hc => by
    unfold digits at h
    split at h
    next d hx =>
      rcases List.mem_cons.1 hc with rfl | hc
      · exact hd _ d hx
      · exact plainChar_of_digits base digit hd xs _ n h c hc
    next => cases h

/-- A text that is a number can stand as an operand. -/
theorem plain_of_number (cs : List Char) (n : Nat) (h : number cs = some n) : Plain cs := by
  unfold number at h
  split at h
  · cases h
  · cases h
  · refine ⟨by simp, fun c hc => ?_⟩
    rcases List.mem_cons.1 hc with rfl | hc
    · decide
    rcases List.mem_cons.1 hc with rfl | hc
    · decide
    exact plainChar_of_digits 16 hexDigit plainChar_of_hexDigit _ 0 n h c hc
  · next hne _ _ => exact ⟨fun h0 => hne h0, plainChar_of_digits 10 decimalDigit plainChar_of_decimalDigit cs 0 n h⟩

theorem plain_levelName (l : Level) : Plain (levelName l) := by
  cases l <;>
    simp only [Plain, levelName, ne_eq, reduceCtorEq, not_false_eq_true, List.forall_mem_cons, true_and] <;> simp [plainChar, isBlank]

/-! ### The parts of a line -/

/-- Blanks at the front do not matter. -/
theorem trim_blank (cs : List Char) : trim (' ' :: cs) = trim cs := rfl

theorem dropWhile_blank_of_plain (c : Char) (cs : List Char) (h : plainChar c = true) :
    (c :: cs).dropWhile isBlank = c :: cs := by
  simp [((plainChar_iff c).1 h).1]

/-- A text whose first and last characters are no blanks is trimmed already. -/
theorem trim_of_ends (c d : Char) (cs ds : List Char) (h : c :: cs = ds ++ [d]) (hc : plainChar c = true)
    (hd : plainChar d = true) : trim (c :: cs) = c :: cs := by
  unfold trim
  rw [dropWhile_blank_of_plain c cs hc, h, List.reverse_append, List.reverse_singleton, List.singleton_append,
    dropWhile_blank_of_plain d _ hd, List.reverse_cons, List.reverse_reverse]

/-- A text that begins and ends with operands is trimmed already. -/
theorem trim_between (a b mid : List Char) (ha : Plain a) (hb : Plain b) : trim (a ++ mid ++ b) = a ++ mid ++ b := by
  obtain ⟨c, a, rfl⟩ := List.exists_cons_of_ne_nil ha.1
  obtain ⟨ds, d, rfl⟩ : ∃ ds d, b = ds ++ [d] := ⟨b.dropLast, b.getLast hb.1, (List.dropLast_append_getLast hb.1).symm⟩
  exact trim_of_ends c d _ (c :: a ++ mid ++ ds) (by simp) (ha.2 c (by simp)) (hb.2 d (by simp))

theorem trim_plain (a : List Char) (ha : Plain a) : trim a = a := by
  obtain ⟨c, a, rfl⟩ := List.exists_cons_of_ne_nil ha.1
  obtain ⟨ds, d, h⟩ : ∃ ds d, c :: a = ds ++ [d] :=
    ⟨(c :: a).dropLast, (c :: a).getLast ha.1, (List.dropLast_append_getLast ha.1).symm⟩
  exact trim_of_ends c d a ds h (ha.2 c (by simp)) (ha.2 d (by rw [h]; simp))

/-- A text without a comma is one part. -/
theorem splitCommas_plain : ∀ a : List Char, (∀ c ∈ a, plainChar c = true) → splitCommas a = [a]
  | [], _ => rfl
  | c :: cs, h => by
    have hc : (c == ',') = false := by simpa using ((plainChar_iff c).1 (h c (by simp))).2.1
    simp [splitCommas, hc, splitCommas_plain cs fun d hd => h d (by simp [hd])]

/-- The text before the first comma is the first part. -/
theorem splitCommas_comma (rest : List Char) :
    ∀ a : List Char, (∀ c ∈ a, plainChar c = true) → splitCommas (a ++ ',' :: rest) = a :: splitCommas rest
  | [], _ => rfl
  | c :: cs, h => by
    have hc : (c == ',') = false := by simpa using ((plainChar_iff c).1 (h c (by simp))).2.1
    simp [splitCommas, hc, splitCommas_comma rest cs fun d hd => h d (by simp [hd])]

/-- A blank after a comma stays with its part, and is trimmed off it. -/
theorem splitCommas_blank (rest first : List Char) (parts : List (List Char)) (h : splitCommas rest = first :: parts) :
    splitCommas (' ' :: rest) = (' ' :: first) :: parts := by
  simp [splitCommas, h]

/-- A comment does not matter. -/
theorem stripComment_comment (line note : List Char) : stripComment (line ++ ';' :: note) = stripComment line := by
  induction line with
  | nil => rfl
  | cons c cs ih =>
    unfold stripComment at ih ⊢
    by_cases hc : (c != ';') = true
    · simp only [List.cons_append, List.takeWhile_cons, hc, if_true, ih]
    · simp only [List.cons_append, List.takeWhile_cons, hc, Bool.false_eq_true, if_false]

/-- Where no comment starts, nothing is stripped. -/
theorem stripComment_none (line : List Char) (h : ∀ c ∈ line, c ≠ ';') : stripComment line = line := by
  unfold stripComment
  rw [List.takeWhile_eq_self_iff]
  simpa using h

/-- A mnemonic, a blank and an operand text: the command of that mnemonic and of the operands in the text. -/
theorem assembleLine_operands (m ops last mid : List Char) (hm : Plain m) (hl : Plain last) (ho : ops = mid ++ last)
    (hs : ∀ c ∈ ops, c ≠ ';') (hh : ∀ c ∈ ops.head?, plainChar c = true) :
    assembleLine (m ++ ' ' :: ops) =
      assembled (lineInstr m ((splitCommas ops).map trim)) := by
  have hne : ops ≠ [] := by rw [ho]; exact List.append_ne_nil_of_right_ne_nil _ hl.1
  obtain ⟨c, cs, hc⟩ := List.exists_cons_of_ne_nil hne
  have hstrip : stripComment (m ++ ' ' :: ops) = m ++ ' ' :: ops := by
    refine stripComment_none _ fun c hc => ?_
    rcases List.mem_append.1 hc with h | h
    · exact ((plainChar_iff c).1 (hm.2 c h)).2.2
    · rcases List.mem_cons.1 h with rfl | h
      · decide
      · exact hs c h
  have htrim : trim (m ++ ' ' :: ops) = m ++ ' ' :: ops := by
    have := trim_between m last (' ' :: mid) hm hl
    rwa [List.append_assoc, List.cons_append, ← ho] at this
  have hops : trim ops = ops := by
    obtain ⟨ds, d, hd⟩ : ∃ ds d, last = ds ++ [d] :=
      ⟨last.dropLast, last.getLast hl.1, (List.dropLast_append_getLast hl.1).symm⟩
    rw [hc]
    refine trim_of_ends c d cs (mid ++ ds) (by rw [← hc, ho, hd, List.append_assoc]) (hh c (by simp [hc])) (hl.2 d (by simp [hd]))
  have hnb : ∀ x ∈ m, (! isBlank x) = true := fun x hx => by simp [((plainChar_iff x).1 (hm.2 x hx)).1]
  have htake : (m ++ ' ' :: ops).takeWhile (! isBlank ·) = m := by
    rw [List.takeWhile_append_of_pos hnb]
    simp [isBlank]
  have hdrop : (m ++ ' ' :: ops).dropWhile (! isBlank ·) = ' ' :: ops := by
    rw [List.dropWhile_append_of_pos hnb]
    simp [isBlank]
  have hlo : lineOperands (' ' :: ops) = (splitCommas ops).map trim := by
    unfold lineOperands
    rw [trim_blank, hops, hc]
  unfold assembleLine
  rw [hstrip, htrim]
  obtain ⟨x, xs, rfl⟩ := List.exists_cons_of_ne_nil hm.1
  simp only [List.cons_append] at htake hdrop ⊢
  simp only [htake, hdrop, hlo]

/-- A line with one operand. -/
theorem assembleLine_one (m a : List Char) (hm : Plain m) (ha : Plain a) :
    assembleLine (m ++ ' ' :: a) =
      assembled (lineInstr m [a]) := by
  rw [assembleLine_operands m a a [] hm ha rfl (fun c hc => ((plainChar_iff c).1 (ha.2 c hc)).2.2)
    (fun c hc => ha.2 c (List.mem_of_mem_head? hc)), splitCommas_plain a ha.2]
  simp only [List.map_cons, List.map_nil, trim_plain a ha]

/-- A line with two operands. -/
theorem assembleLine_two (m a b : List Char) (hm : Plain m) (ha : Plain a) (hb : Plain b) :
    assembleLine (m ++ ' ' :: (a ++ ',' :: ' ' :: b)) =
      assembled (lineInstr m [a, b]) := by
  obtain ⟨c, cs, rfl⟩ := List.exists_cons_of_ne_nil ha.1
  rw [assembleLine_operands m _ b (c :: cs ++ [',', ' ']) hm hb (by simp) ?_ (fun x hx => by
      have : x = c := by simpa using hx.symm
      exact ha.2 x (by simp [this])), splitCommas_comma _ _ ha.2, splitCommas_blank _ _ _ (splitCommas_plain b hb.2)]
  · simp only [List.map_cons, List.map_nil, trim_plain _ ha, trim_blank, trim_plain b hb]
  · intro x hx
    rcases List.mem_append.1 hx with h | h
    · exact ((plainChar_iff x).1 (ha.2 x h)).2.2
    · simp only [List.mem_cons] at h
      rcases h with rfl | rfl | h
      · decide
      · decide
      · exact ((plainChar_iff x).1 (hb.2 x h)).2.2

/-- A line with three operands. -/
theorem assembleLine_three (m a b d : List Char) (hm : Plain m) (ha : Plain a) (hb : Plain b) (hd : Plain d) :
    assembleLine (m ++ ' ' :: (a ++ ',' :: ' ' :: (b ++ ',' :: ' ' :: d))) =
      assembled (lineInstr m [a, b, d]) := by
  obtain ⟨c, cs, rfl⟩ := List.exists_cons_of_ne_nil ha.1
  rw [assembleLine_operands m _ d (c :: cs ++ ',' :: ' ' :: (b ++ [',', ' '])) hm hd (by simp) ?_ (fun x hx => by
      have : x = c := by simpa using hx.symm
      exact ha.2 x (by simp [this])), splitCommas_comma _ _ ha.2,
    splitCommas_blank _ b _ (by rw [splitCommas_comma _ _ hb.2]), splitCommas_blank _ _ _ (splitCommas_plain d hd.2)]
  · simp only [List.map_cons, List.map_nil, trim_plain _ ha, trim_blank, trim_plain b hb, trim_plain d hd]
  · intro x hx
    rcases List.mem_append.1 hx with h | h
    · exact ((plainChar_iff x).1 (ha.2 x h)).2.2
    · simp only [List.mem_cons, List.mem_append] at h
      rcases h with rfl | rfl | h | rfl | rfl | h
      · decide
      · decide
      · exact ((plainChar_iff x).1 (hb.2 x h)).2.2
      · decide
      · decide
      · exact ((plainChar_iff x).1 (hd.2 x h)).2.2

end Sys2Proof.Machine
end

