-- ==== Sys2Proof/Laws/Encoding.lean ====
section
/-! SUPPORT. Laws/Encoding.lean: fields of words given as numbers, and the two status words as numbers. -/

namespace Sys2Proof

/-- A field of a word given as a number. -/
theorem bits_ofNat (n hi lo : Nat) :
    bits (BitVec.ofNat 32 n) hi lo = n % 4294967296 / 2 ^ lo % 2 ^ (hi - lo + 1) := by
  show _ / Nat.pow 2 lo % Nat.pow 2 (hi - lo + 1) = _
  rw [BitVec.toNat_ofNat]
  rfl

/-- A field of an encoded command. -/
theorem bits_encode (i : Instr) (hi lo : Nat) :
    bits (encode i) hi lo = i.wordValue % 4294967296 / 2 ^ lo % 2 ^ (hi - lo + 1) := bits_ofNat _ _ _

/-- A field of a word, as arithmetic that `omega` reads. -/
theorem bits_eq (w : Word) (hi lo : Nat) : bits w hi lo = w.toNat / 2 ^ lo % 2 ^ (hi - lo + 1) := rfl

/-- A field is zero when the word has no bit of a mask that lies in the field set. -/
theorem and_mask_eq_zero (w m : Word) (hi lo : Nat) (hm : ∀ k < 32, m.getLsbD k = true → lo ≤ k ∧ k ≤ hi)
    (h0 : bits w hi lo = 0) : w &&& m = 0#32 := by
  apply BitVec.eq_of_getLsbD_eq
  intro k hk
  simp only [BitVec.getLsbD_and, BitVec.getLsbD_zero]
  by_cases hmk : m.getLsbD k = true
  · obtain ⟨h1, h2⟩ := hm k hk hmk
    have ht : (w.toNat / 2 ^ lo % 2 ^ (hi - lo + 1)).testBit (k - lo) = false := by
      have : w.toNat / 2 ^ lo % 2 ^ (hi - lo + 1) = 0 := h0
      simp [this]
    rw [Nat.testBit_mod_two_pow, Nat.testBit_div_two_pow] at ht
    simp only [Bool.and_eq_false_imp, decide_eq_true_eq] at ht
    have hw : w.getLsbD k = false := by
      have := ht (by omega)
      rwa [show k - lo + lo = k by omega] at this
    simp [hw]
  · simp [hmk]

namespace Machine

/-- STATUS as a number. -/
theorem statusWord_toNat (s : State) :
    (statusWord s).toNat =
      s.rspData.toNat * 0x100 + s.rspStatus.code.toNat * 0x10 + s.drv.code.toNat * 0x2 + s.busy.toNat := by
  have h1 := s.rspData.isLt
  have h2 := s.rspStatus.code.isLt
  have h3 := s.drv.code.isLt
  have h4 : s.busy.toNat < 2 := by cases s.busy <;> decide
  simp only [statusWord, BitVec.toNat_ofNat]
  omega

/-- DIRTY as a number. -/
theorem dirtyWord_toNat (s : State) : (dirtyWord s).toNat = s.dirtyMax.toNat * 0x10000 + s.dirtyMin.toNat := by
  have h1 := s.dirtyMax.isLt
  have h2 := s.dirtyMin.isLt
  simp only [dirtyWord, BitVec.toNat_ofNat]
  omega

/-- An accepted word's command runs, unless a reset comes next. -/
theorem acceptStep_of_not_reset (w : Word) (s : State) (hr : s.inputs.head? ≠ some .reset) :
    acceptStep w s = runCommand (acceptWord w s) := by
  unfold acceptStep
  split
  next hi => simp [hi] at hr
  next => rfl

/-- An illegal word offered to a ready port. -/
theorem step_illegal (s : State) (w : Word) (why : Illegal) (hd : decode w = .illegal why) (hb : s.busy = false)
    (ho : s.offered = some w) (hr : s.inputs.head? ≠ some .reset) :
    step s = .next { s.responded .errOpcode 0x00#8 with offered := none, cmd := w } := by
  simp [step, hb, idleStep, ho, acceptStep_of_not_reset w s hr, runCommand, acceptWord, State.accept, hd, raise, complete,
    State.responded]

end Machine
end Sys2Proof
end

