-- ==== Sys2Proof/Laws/Memory.lean ====
section
/-! SUPPORT. Laws/Memory.lean: what every memory operation reads as, that it keeps the canonical form, and that two memories in
canonical form with the same bytes are the same list. -/

namespace Sys2Proof.Machine.Memory

@[simp] theorem read_nil (a : Nat) : read [] a = unlisted := rfl

theorem read_cons (k : Nat) (v : Byte) (m : Memory) (a : Nat) :
    read ((k, v) :: m) a = if k = a then v else read m a := rfl

/-- An address below every listed one reads as unlisted. -/
theorem read_of_lt : ∀ (m : Memory) (a : Nat), (∀ c ∈ m, a < c.1) → read m a = unlisted
  | [], _, _ => rfl
  | (k, v) :: rest, a, h => by
    have hk : a < k := h (k, v) (by simp)
    rw [read_cons, if_neg (by omega), read_of_lt rest a fun c hc => h c (by simp [hc])]

/-- An address above every listed one reads as unlisted. -/
theorem read_of_below (m : Memory) (n a : Nat) (h : m.below n) (ha : n ≤ a) : read m a = unlisted := by
  induction m with
  | nil => rfl
  | cons c rest ih =>
    obtain ⟨k, v⟩ := c
    have hk : k < n := h (k, v) (by simp)
    rw [read_cons, if_neg (by omega), ih fun c hc => h c (by simp [hc])]

theorem put_unlisted (a : Nat) (m : Memory) : put a unlisted m = m := by simp [put]

theorem mem_put {a : Nat} {v : Byte} {m : Memory} {c : Host.Cell} (h : c ∈ put a v m) : c = (a, v) ∨ c ∈ m := by
  unfold put at h
  split at h
  · exact .inr h
  · simpa using h

/-- An entry put in front reads as its byte, the rest as before, when no address of the rest is as low. -/
theorem read_put (a : Nat) (v : Byte) (m : Memory) (b : Nat) (h : ∀ c ∈ m, a < c.1) :
    read (put a v m) b = if a = b then v else read m b := by
  unfold put
  split
  next hv =>
    split
    next hab => subst hab; rw [read_of_lt m a h, hv]
    next => rfl
  next => rw [read_cons]

theorem wf_nil : wf [] := by simp [wf]

theorem wf_cons {k : Nat} {v : Byte} {m : Memory} :
    wf ((k, v) :: m) ↔ (∀ c ∈ m, k < c.1) ∧ v ≠ unlisted ∧ wf m := by
  simp only [wf, List.pairwise_cons, List.mem_cons, forall_eq_or_imp]
  tauto

theorem wf_put {a : Nat} {v : Byte} {m : Memory} (hm : wf m) (h : ∀ c ∈ m, a < c.1) : wf (put a v m) := by
  unfold put
  split
  next => exact hm
  next hv => exact wf_cons.2 ⟨h, hv, hm⟩

theorem mem_write {c : Host.Cell} {a : Nat} {v : Byte} :
    ∀ {m : Memory}, c ∈ write m a v → c = (a, v) ∨ c ∈ m
  | [], h => mem_put h
  | (k, w) :: rest, h => by
    simp only [write] at h
    split at h
    · exact mem_put h
    · split at h
      · rcases mem_put h with h | h <;> simp [h]
      · rcases List.mem_cons.1 h with h | h
        · simp [h]
        · rcases mem_write h with h | h <;> simp [h]

/-- Every write keeps the canonical form. -/
theorem wf_write (a : Nat) (v : Byte) : ∀ {m : Memory}, wf m → wf (write m a v)
  | [], h => wf_put h (by simp)
  | (k, w) :: rest, h => by
    obtain ⟨hk, hw, hr⟩ := wf_cons.1 h
    simp only [write]
    split
    next hak =>
      refine wf_put h ?_
      simp only [List.mem_cons, forall_eq_or_imp]
      exact ⟨hak, fun c hc => lt_trans hak (hk c hc)⟩
    next hak =>
      split
      next hkk => exact wf_put hr (by subst hkk; exact hk)
      next hkk =>
        refine wf_cons.2 ⟨fun c hc => ?_, hw, wf_write a v hr⟩
        rcases mem_write hc with rfl | hc
        · show k < a
          omega
        · exact hk c hc

theorem below_write {m : Memory} {n a : Nat} {v : Byte} (hm : m.below n) (ha : a < n) : (write m a v).below n := by
  intro c hc
  rcases mem_write hc with rfl | hc
  · exact ha
  · exact hm c hc

/-- A read after a write: the written address gives the byte written, every other address what it gave before. -/
theorem read_write (a : Nat) (v : Byte) (b : Nat) :
    ∀ {m : Memory}, wf m → read (write m a v) b = if a = b then v else read m b
  | [], _ => by rw [write, read_put _ _ _ _ (by simp)]
  | (k, w) :: rest, h => by
    obtain ⟨hk, -, hr⟩ := wf_cons.1 h
    simp only [write]
    split
    next hak =>
      refine read_put _ _ _ _ ?_
      simp only [List.mem_cons, forall_eq_or_imp]
      exact ⟨hak, fun c hc => lt_trans hak (hk c hc)⟩
    next =>
      split
      next hkk =>
        subst hkk
        rw [read_put _ _ _ _ hk, read_cons]
        split <;> rfl
      next hne =>
        rw [read_cons, read_cons, read_write a v b hr]
        split
        · rw [if_neg (by omega)]
        · rfl

theorem wf_zeroRange (lo hi : Nat) {m : Memory} (h : wf m) : wf (m.zeroRange lo hi) :=
  ⟨h.1.filter _, fun c hc => h.2 c (List.mem_of_mem_filter hc)⟩

theorem below_zeroRange (lo hi : Nat) {m : Memory} {n : Nat} (h : m.below n) : (m.zeroRange lo hi).below n :=
  fun c hc => h c (List.mem_of_mem_filter hc)

/-- A zeroed range reads as 0x00, every other address as before. -/
theorem read_zeroRange (lo hi : Nat) (m : Memory) (a : Nat) :
    read (m.zeroRange lo hi) a = if lo ≤ a ∧ a < hi then 0x00#8 else read m a := by
  induction m with
  | nil => simp [zeroRange]
  | cons c rest ih =>
    obtain ⟨k, v⟩ := c
    unfold zeroRange at ih ⊢
    by_cases hk : k < lo ∨ hi ≤ k
    · rw [List.filter_cons_of_pos (by simpa using hk), read_cons, read_cons, ih]
      by_cases hka : k = a
      · subst hka; rw [if_pos rfl, if_pos rfl, if_neg (by omega)]
      · rw [if_neg hka, if_neg hka]
    · rw [List.filter_cons_of_neg (by simpa using hk), read_cons, ih]
      by_cases hka : k = a
      · subst hka; rw [if_pos rfl, if_pos (by omega), if_pos (by omega)]
      · rw [if_neg hka]

/-- The whole space zeroed lists nothing. -/
theorem zeroRange_all {m : Memory} {n : Nat} (h : m.below n) : m.zeroRange 0 n = [] := by
  simp only [zeroRange, List.filter_eq_nil_iff, Bool.or_eq_true, decide_eq_true_eq, not_or]
  intro c hc
  have := h c hc
  omega

theorem mem_ofFn {f : Nat → Byte} {c : Host.Cell} :
    ∀ {n start : Nat}, c ∈ ofFn f start n → start ≤ c.1 ∧ c.1 < start + n
  | 0, _, h => by simp [ofFn] at h
  | n + 1, start, h => by
    rcases mem_put h with rfl | h
    · simp
    · have := mem_ofFn h
      omega

theorem wf_ofFn (f : Nat → Byte) : ∀ (n start : Nat), wf (ofFn f start n)
  | 0, _ => wf_nil
  | n + 1, start => wf_put (wf_ofFn f n (start + 1)) fun c hc => by have := mem_ofFn hc; omega

theorem below_ofFn (f : Nat → Byte) (n start : Nat) : (ofFn f start n).below (start + n) := fun _ hc => (mem_ofFn hc).2

/-- A memory given by a function reads as that function on its range. -/
theorem read_ofFn (f : Nat → Byte) (a : Nat) :
    ∀ (n start : Nat), read (ofFn f start n) a = if start ≤ a ∧ a < start + n then f a else unlisted
  | 0, start => by simp only [ofFn, read_nil]; rw [if_neg (by omega)]
  | n + 1, start => by
    rw [ofFn, read_put _ _ _ _ fun c hc => by have := mem_ofFn hc; omega, read_ofFn f a n (start + 1)]
    by_cases h : start = a
    · subst h; rw [if_pos rfl, if_pos (by omega)]
    · rw [if_neg h]
      by_cases h2 : start + 1 ≤ a ∧ a < start + 1 + n
      · rw [if_pos h2, if_pos (by omega)]
      · rw [if_neg h2, if_neg (by omega)]

/-- Memories in canonical form that read alike are the same list. -/
theorem ext_of_read : ∀ {m n : Memory}, wf m → wf n → (∀ a, read m a = read n a) → m = n
  | [], [], _, _, _ => rfl
  | [], (k, v) :: n, _, hn, h => by
    have := h k
    rw [read_nil, read_cons, if_pos rfl] at this
    exact absurd this.symm (wf_cons.1 hn).2.1
  | (k, v) :: m, [], hm, _, h => by
    have := h k
    rw [read_nil, read_cons, if_pos rfl] at this
    exact absurd this (wf_cons.1 hm).2.1
  | (k, v) :: m, (l, w) :: n, hm, hn, h => by
    obtain ⟨hkm, hv, hm'⟩ := wf_cons.1 hm
    obtain ⟨hln, hw, hn'⟩ := wf_cons.1 hn
    have hkl : k = l := by
      rcases Nat.lt_trichotomy k l with hlt | heq | hlt
      · have := h k
        rw [read_cons, if_pos rfl, read_cons, if_neg (by omega),
          read_of_lt n k fun c hc => lt_trans hlt (hln c hc)] at this
        exact absurd this hv
      · exact heq
      · have := h l
        rw [read_cons, if_neg (by omega), read_of_lt m l fun c hc => lt_trans hlt (hkm c hc),
          read_cons, if_pos rfl] at this
        exact absurd this.symm hw
    subst hkl
    have hvw : v = w := by simpa [read_cons] using h k
    subst hvw
    refine congrArg _ (ext_of_read hm' hn' fun a => ?_)
    by_cases hka : k = a
    · subst hka; rw [read_of_lt m k hkm, read_of_lt n k hln]
    · simpa [read_cons, hka] using h a

@[simp] theorem length_slice (m : Memory) (start n : Nat) : (m.slice start n).length = n := by simp [slice]

end Sys2Proof.Machine.Memory
end

