-- ==== Sys2Proof/Laws/State.lean ====
section
/-! SUPPORT. Laws/State.lean: one lemma per state field per update, so that no later proof unfolds a record update. -/

namespace Sys2Proof.Machine

@[simp] theorem zeroFb_drv (lo hi : Nat) (s : State) : (s.zeroFb lo hi).drv = s.drv := rfl
@[simp] theorem zeroFb_busy (lo hi : Nat) (s : State) : (s.zeroFb lo hi).busy = s.busy := rfl
@[simp] theorem zeroFb_cmd (lo hi : Nat) (s : State) : (s.zeroFb lo hi).cmd = s.cmd := rfl
@[simp] theorem zeroFb_rspStatus (lo hi : Nat) (s : State) : (s.zeroFb lo hi).rspStatus = s.rspStatus := rfl
@[simp] theorem zeroFb_rspData (lo hi : Nat) (s : State) : (s.zeroFb lo hi).rspData = s.rspData := rfl
@[simp] theorem zeroFb_fb (lo hi : Nat) (s : State) : (s.zeroFb lo hi).fb = s.fb.zeroRange lo hi := rfl
@[simp] theorem zeroFb_dirtyMin (lo hi : Nat) (s : State) : (s.zeroFb lo hi).dirtyMin = s.dirtyMin := rfl
@[simp] theorem zeroFb_dirtyMax (lo hi : Nat) (s : State) : (s.zeroFb lo hi).dirtyMax = s.dirtyMax := rfl
@[simp] theorem zeroFb_dc (lo hi : Nat) (s : State) : (s.zeroFb lo hi).dc = s.dc := rfl
@[simp] theorem zeroFb_rst (lo hi : Nat) (s : State) : (s.zeroFb lo hi).rst = s.rst := rfl
@[simp] theorem zeroFb_seq (lo hi : Nat) (s : State) : (s.zeroFb lo hi).seq = s.seq := rfl
@[simp] theorem zeroFb_initIdx (lo hi : Nat) (s : State) : (s.zeroFb lo hi).initIdx = s.initIdx := rfl
@[simp] theorem zeroFb_chunk (lo hi : Nat) (s : State) : (s.zeroFb lo hi).chunk = s.chunk := rfl
@[simp] theorem zeroFb_werr (lo hi : Nat) (s : State) : (s.zeroFb lo hi).werr = s.werr := rfl
@[simp] theorem zeroFb_offered (lo hi : Nat) (s : State) : (s.zeroFb lo hi).offered = s.offered := rfl
@[simp] theorem zeroFb_outstanding (lo hi : Nat) (s : State) : (s.zeroFb lo hi).outstanding = s.outstanding := rfl
@[simp] theorem zeroFb_src (lo hi : Nat) (s : State) : (s.zeroFb lo hi).src = s.src := rfl
@[simp] theorem zeroFb_inputs (lo hi : Nat) (s : State) : (s.zeroFb lo hi).inputs = s.inputs := rfl
@[simp] theorem zeroFb_params (lo hi : Nat) (s : State) : (s.zeroFb lo hi).params = s.params := rfl
@[simp] theorem zeroFb_trace (lo hi : Nat) (s : State) : (s.zeroFb lo hi).trace = s.trace := rfl
@[simp] theorem zeroFb_responses (lo hi : Nat) (s : State) : (s.zeroFb lo hi).responses = s.responses := rfl

@[simp] theorem setDc_drv (p : Pin) (s : State) : (s.setDc p).drv = s.drv := rfl
@[simp] theorem setDc_busy (p : Pin) (s : State) : (s.setDc p).busy = s.busy := rfl
@[simp] theorem setDc_cmd (p : Pin) (s : State) : (s.setDc p).cmd = s.cmd := rfl
@[simp] theorem setDc_rspStatus (p : Pin) (s : State) : (s.setDc p).rspStatus = s.rspStatus := rfl
@[simp] theorem setDc_rspData (p : Pin) (s : State) : (s.setDc p).rspData = s.rspData := rfl
@[simp] theorem setDc_fb (p : Pin) (s : State) : (s.setDc p).fb = s.fb := rfl
@[simp] theorem setDc_dirtyMin (p : Pin) (s : State) : (s.setDc p).dirtyMin = s.dirtyMin := rfl
@[simp] theorem setDc_dirtyMax (p : Pin) (s : State) : (s.setDc p).dirtyMax = s.dirtyMax := rfl
@[simp] theorem setDc_dc (p : Pin) (s : State) : (s.setDc p).dc = p := rfl
@[simp] theorem setDc_rst (p : Pin) (s : State) : (s.setDc p).rst = s.rst := rfl
@[simp] theorem setDc_seq (p : Pin) (s : State) : (s.setDc p).seq = s.seq := rfl
@[simp] theorem setDc_initIdx (p : Pin) (s : State) : (s.setDc p).initIdx = s.initIdx := rfl
@[simp] theorem setDc_chunk (p : Pin) (s : State) : (s.setDc p).chunk = s.chunk := rfl
@[simp] theorem setDc_werr (p : Pin) (s : State) : (s.setDc p).werr = s.werr := rfl
@[simp] theorem setDc_offered (p : Pin) (s : State) : (s.setDc p).offered = s.offered := rfl
@[simp] theorem setDc_outstanding (p : Pin) (s : State) : (s.setDc p).outstanding = s.outstanding := rfl
@[simp] theorem setDc_src (p : Pin) (s : State) : (s.setDc p).src = s.src := rfl
@[simp] theorem setDc_inputs (p : Pin) (s : State) : (s.setDc p).inputs = s.inputs := rfl
@[simp] theorem setDc_params (p : Pin) (s : State) : (s.setDc p).params = s.params := rfl
@[simp] theorem setDc_trace (p : Pin) (s : State) : (s.setDc p).trace = s.trace := rfl
@[simp] theorem setDc_responses (p : Pin) (s : State) : (s.setDc p).responses = s.responses := rfl

@[simp] theorem setRst_drv (p : Pin) (s : State) : (s.setRst p).drv = s.drv := rfl
@[simp] theorem setRst_busy (p : Pin) (s : State) : (s.setRst p).busy = s.busy := rfl
@[simp] theorem setRst_cmd (p : Pin) (s : State) : (s.setRst p).cmd = s.cmd := rfl
@[simp] theorem setRst_rspStatus (p : Pin) (s : State) : (s.setRst p).rspStatus = s.rspStatus := rfl
@[simp] theorem setRst_rspData (p : Pin) (s : State) : (s.setRst p).rspData = s.rspData := rfl
@[simp] theorem setRst_fb (p : Pin) (s : State) : (s.setRst p).fb = s.fb := rfl
@[simp] theorem setRst_dirtyMin (p : Pin) (s : State) : (s.setRst p).dirtyMin = s.dirtyMin := rfl
@[simp] theorem setRst_dirtyMax (p : Pin) (s : State) : (s.setRst p).dirtyMax = s.dirtyMax := rfl
@[simp] theorem setRst_dc (p : Pin) (s : State) : (s.setRst p).dc = s.dc := rfl
@[simp] theorem setRst_rst (p : Pin) (s : State) : (s.setRst p).rst = p := rfl
@[simp] theorem setRst_seq (p : Pin) (s : State) : (s.setRst p).seq = s.seq := rfl
@[simp] theorem setRst_initIdx (p : Pin) (s : State) : (s.setRst p).initIdx = s.initIdx := rfl
@[simp] theorem setRst_chunk (p : Pin) (s : State) : (s.setRst p).chunk = s.chunk := rfl
@[simp] theorem setRst_werr (p : Pin) (s : State) : (s.setRst p).werr = s.werr := rfl
@[simp] theorem setRst_offered (p : Pin) (s : State) : (s.setRst p).offered = s.offered := rfl
@[simp] theorem setRst_outstanding (p : Pin) (s : State) : (s.setRst p).outstanding = s.outstanding := rfl
@[simp] theorem setRst_src (p : Pin) (s : State) : (s.setRst p).src = s.src := rfl
@[simp] theorem setRst_inputs (p : Pin) (s : State) : (s.setRst p).inputs = s.inputs := rfl
@[simp] theorem setRst_params (p : Pin) (s : State) : (s.setRst p).params = s.params := rfl
@[simp] theorem setRst_trace (p : Pin) (s : State) : (s.setRst p).trace = s.trace := rfl
@[simp] theorem setRst_responses (p : Pin) (s : State) : (s.setRst p).responses = s.responses := rfl

@[simp] theorem goto_drv (q : Seq) (s : State) : (s.goto q).drv = s.drv := rfl
@[simp] theorem goto_busy (q : Seq) (s : State) : (s.goto q).busy = s.busy := rfl
@[simp] theorem goto_cmd (q : Seq) (s : State) : (s.goto q).cmd = s.cmd := rfl
@[simp] theorem goto_rspStatus (q : Seq) (s : State) : (s.goto q).rspStatus = s.rspStatus := rfl
@[simp] theorem goto_rspData (q : Seq) (s : State) : (s.goto q).rspData = s.rspData := rfl
@[simp] theorem goto_fb (q : Seq) (s : State) : (s.goto q).fb = s.fb := rfl
@[simp] theorem goto_dirtyMin (q : Seq) (s : State) : (s.goto q).dirtyMin = s.dirtyMin := rfl
@[simp] theorem goto_dirtyMax (q : Seq) (s : State) : (s.goto q).dirtyMax = s.dirtyMax := rfl
@[simp] theorem goto_dc (q : Seq) (s : State) : (s.goto q).dc = s.dc := rfl
@[simp] theorem goto_rst (q : Seq) (s : State) : (s.goto q).rst = s.rst := rfl
@[simp] theorem goto_seq (q : Seq) (s : State) : (s.goto q).seq = q := rfl
@[simp] theorem goto_initIdx (q : Seq) (s : State) : (s.goto q).initIdx = s.initIdx := rfl
@[simp] theorem goto_chunk (q : Seq) (s : State) : (s.goto q).chunk = s.chunk := rfl
@[simp] theorem goto_werr (q : Seq) (s : State) : (s.goto q).werr = s.werr := rfl
@[simp] theorem goto_offered (q : Seq) (s : State) : (s.goto q).offered = s.offered := rfl
@[simp] theorem goto_outstanding (q : Seq) (s : State) : (s.goto q).outstanding = s.outstanding := rfl
@[simp] theorem goto_src (q : Seq) (s : State) : (s.goto q).src = s.src := rfl
@[simp] theorem goto_inputs (q : Seq) (s : State) : (s.goto q).inputs = s.inputs := rfl
@[simp] theorem goto_params (q : Seq) (s : State) : (s.goto q).params = s.params := rfl
@[simp] theorem goto_trace (q : Seq) (s : State) : (s.goto q).trace = s.trace := rfl
@[simp] theorem goto_responses (q : Seq) (s : State) : (s.goto q).responses = s.responses := rfl

@[simp] theorem issue_drv (r : Request) (s : State) : (s.issue r).drv = s.drv := rfl
@[simp] theorem issue_busy (r : Request) (s : State) : (s.issue r).busy = s.busy := rfl
@[simp] theorem issue_cmd (r : Request) (s : State) : (s.issue r).cmd = s.cmd := rfl
@[simp] theorem issue_rspStatus (r : Request) (s : State) : (s.issue r).rspStatus = s.rspStatus := rfl
@[simp] theorem issue_rspData (r : Request) (s : State) : (s.issue r).rspData = s.rspData := rfl
@[simp] theorem issue_fb (r : Request) (s : State) : (s.issue r).fb = s.fb := rfl
@[simp] theorem issue_dirtyMin (r : Request) (s : State) : (s.issue r).dirtyMin = s.dirtyMin := rfl
@[simp] theorem issue_dirtyMax (r : Request) (s : State) : (s.issue r).dirtyMax = s.dirtyMax := rfl
@[simp] theorem issue_dc (r : Request) (s : State) : (s.issue r).dc = s.dc := rfl
@[simp] theorem issue_rst (r : Request) (s : State) : (s.issue r).rst = s.rst := rfl
@[simp] theorem issue_seq (r : Request) (s : State) : (s.issue r).seq = s.seq := rfl
@[simp] theorem issue_initIdx (r : Request) (s : State) : (s.issue r).initIdx = s.initIdx := rfl
@[simp] theorem issue_chunk (r : Request) (s : State) : (s.issue r).chunk = s.chunk := rfl
@[simp] theorem issue_werr (r : Request) (s : State) : (s.issue r).werr = s.werr := rfl
@[simp] theorem issue_offered (r : Request) (s : State) : (s.issue r).offered = s.offered := rfl
@[simp] theorem issue_outstanding (r : Request) (s : State) : (s.issue r).outstanding = some r := rfl
@[simp] theorem issue_src (r : Request) (s : State) : (s.issue r).src = s.src := rfl
@[simp] theorem issue_inputs (r : Request) (s : State) : (s.issue r).inputs = s.inputs := rfl
@[simp] theorem issue_params (r : Request) (s : State) : (s.issue r).params = s.params := rfl
@[simp] theorem issue_trace (r : Request) (s : State) : (s.issue r).trace = s.trace := rfl
@[simp] theorem issue_responses (r : Request) (s : State) : (s.issue r).responses = s.responses := rfl

@[simp] theorem complete_drv (st : Status) (d : Byte) (s : State) : (complete st d s).drv = s.drv := rfl
@[simp] theorem complete_busy (st : Status) (d : Byte) (s : State) : (complete st d s).busy = false := rfl
@[simp] theorem complete_cmd (st : Status) (d : Byte) (s : State) : (complete st d s).cmd = s.cmd := rfl
@[simp] theorem complete_rspStatus (st : Status) (d : Byte) (s : State) : (complete st d s).rspStatus = st := rfl
@[simp] theorem complete_rspData (st : Status) (d : Byte) (s : State) : (complete st d s).rspData = d := rfl
@[simp] theorem complete_fb (st : Status) (d : Byte) (s : State) : (complete st d s).fb = s.fb := rfl
@[simp] theorem complete_dirtyMin (st : Status) (d : Byte) (s : State) : (complete st d s).dirtyMin = s.dirtyMin := rfl
@[simp] theorem complete_dirtyMax (st : Status) (d : Byte) (s : State) : (complete st d s).dirtyMax = s.dirtyMax := rfl
@[simp] theorem complete_dc (st : Status) (d : Byte) (s : State) : (complete st d s).dc = s.dc := rfl
@[simp] theorem complete_rst (st : Status) (d : Byte) (s : State) : (complete st d s).rst = s.rst := rfl
@[simp] theorem complete_seq (st : Status) (d : Byte) (s : State) : (complete st d s).seq = .idle := rfl
@[simp] theorem complete_initIdx (st : Status) (d : Byte) (s : State) : (complete st d s).initIdx = s.initIdx := rfl
@[simp] theorem complete_chunk (st : Status) (d : Byte) (s : State) : (complete st d s).chunk = s.chunk := rfl
@[simp] theorem complete_werr (st : Status) (d : Byte) (s : State) : (complete st d s).werr = s.werr := rfl
@[simp] theorem complete_offered (st : Status) (d : Byte) (s : State) : (complete st d s).offered = s.offered := rfl
@[simp] theorem complete_outstanding (st : Status) (d : Byte) (s : State) : (complete st d s).outstanding = s.outstanding := rfl
@[simp] theorem complete_src (st : Status) (d : Byte) (s : State) : (complete st d s).src = s.src := rfl
@[simp] theorem complete_inputs (st : Status) (d : Byte) (s : State) : (complete st d s).inputs = s.inputs := rfl
@[simp] theorem complete_params (st : Status) (d : Byte) (s : State) : (complete st d s).params = s.params := rfl
@[simp] theorem complete_trace (st : Status) (d : Byte) (s : State) : (complete st d s).trace = s.trace := rfl
@[simp] theorem complete_responses (st : Status) (d : Byte) (s : State) : (complete st d s).responses = s.responses ++ [⟨st, d⟩] := rfl

@[simp] theorem raise_drv (e : Status) (s : State) : (raise e s).drv = s.drv := rfl
@[simp] theorem raise_busy (e : Status) (s : State) : (raise e s).busy = false := rfl
@[simp] theorem raise_cmd (e : Status) (s : State) : (raise e s).cmd = s.cmd := rfl
@[simp] theorem raise_rspStatus (e : Status) (s : State) : (raise e s).rspStatus = e := rfl
@[simp] theorem raise_rspData (e : Status) (s : State) : (raise e s).rspData = 0x00#8 := rfl
@[simp] theorem raise_fb (e : Status) (s : State) : (raise e s).fb = s.fb := rfl
@[simp] theorem raise_dirtyMin (e : Status) (s : State) : (raise e s).dirtyMin = s.dirtyMin := rfl
@[simp] theorem raise_dirtyMax (e : Status) (s : State) : (raise e s).dirtyMax = s.dirtyMax := rfl
@[simp] theorem raise_dc (e : Status) (s : State) : (raise e s).dc = s.dc := rfl
@[simp] theorem raise_rst (e : Status) (s : State) : (raise e s).rst = s.rst := rfl
@[simp] theorem raise_seq (e : Status) (s : State) : (raise e s).seq = .idle := rfl
@[simp] theorem raise_initIdx (e : Status) (s : State) : (raise e s).initIdx = s.initIdx := rfl
@[simp] theorem raise_chunk (e : Status) (s : State) : (raise e s).chunk = s.chunk := rfl
@[simp] theorem raise_werr (e : Status) (s : State) : (raise e s).werr = s.werr := rfl
@[simp] theorem raise_offered (e : Status) (s : State) : (raise e s).offered = s.offered := rfl
@[simp] theorem raise_outstanding (e : Status) (s : State) : (raise e s).outstanding = s.outstanding := rfl
@[simp] theorem raise_src (e : Status) (s : State) : (raise e s).src = s.src := rfl
@[simp] theorem raise_inputs (e : Status) (s : State) : (raise e s).inputs = s.inputs := rfl
@[simp] theorem raise_params (e : Status) (s : State) : (raise e s).params = s.params := rfl
@[simp] theorem raise_trace (e : Status) (s : State) : (raise e s).trace = s.trace := rfl
@[simp] theorem raise_responses (e : Status) (s : State) : (raise e s).responses = s.responses ++ [⟨e, 0x00#8⟩] := rfl

@[simp] theorem ok_drv (d : Byte) (s : State) : (ok d s).drv = s.drv := rfl
@[simp] theorem ok_busy (d : Byte) (s : State) : (ok d s).busy = false := rfl
@[simp] theorem ok_cmd (d : Byte) (s : State) : (ok d s).cmd = s.cmd := rfl
@[simp] theorem ok_rspStatus (d : Byte) (s : State) : (ok d s).rspStatus = .ok := rfl
@[simp] theorem ok_rspData (d : Byte) (s : State) : (ok d s).rspData = d := rfl
@[simp] theorem ok_fb (d : Byte) (s : State) : (ok d s).fb = s.fb := rfl
@[simp] theorem ok_dirtyMin (d : Byte) (s : State) : (ok d s).dirtyMin = s.dirtyMin := rfl
@[simp] theorem ok_dirtyMax (d : Byte) (s : State) : (ok d s).dirtyMax = s.dirtyMax := rfl
@[simp] theorem ok_dc (d : Byte) (s : State) : (ok d s).dc = s.dc := rfl
@[simp] theorem ok_rst (d : Byte) (s : State) : (ok d s).rst = s.rst := rfl
@[simp] theorem ok_seq (d : Byte) (s : State) : (ok d s).seq = .idle := rfl
@[simp] theorem ok_initIdx (d : Byte) (s : State) : (ok d s).initIdx = s.initIdx := rfl
@[simp] theorem ok_chunk (d : Byte) (s : State) : (ok d s).chunk = s.chunk := rfl
@[simp] theorem ok_werr (d : Byte) (s : State) : (ok d s).werr = s.werr := rfl
@[simp] theorem ok_offered (d : Byte) (s : State) : (ok d s).offered = s.offered := rfl
@[simp] theorem ok_outstanding (d : Byte) (s : State) : (ok d s).outstanding = s.outstanding := rfl
@[simp] theorem ok_src (d : Byte) (s : State) : (ok d s).src = s.src := rfl
@[simp] theorem ok_inputs (d : Byte) (s : State) : (ok d s).inputs = s.inputs := rfl
@[simp] theorem ok_params (d : Byte) (s : State) : (ok d s).params = s.params := rfl
@[simp] theorem ok_trace (d : Byte) (s : State) : (ok d s).trace = s.trace := rfl
@[simp] theorem ok_responses (d : Byte) (s : State) : (ok d s).responses = s.responses ++ [⟨.ok, d⟩] := rfl

@[simp] theorem accept_drv (w : Word) (q : Seq) (s : State) : (s.accept w q).drv = s.drv := rfl
@[simp] theorem accept_busy (w : Word) (q : Seq) (s : State) : (s.accept w q).busy = true := rfl
@[simp] theorem accept_cmd (w : Word) (q : Seq) (s : State) : (s.accept w q).cmd = w := rfl
@[simp] theorem accept_rspStatus (w : Word) (q : Seq) (s : State) : (s.accept w q).rspStatus = s.rspStatus := rfl
@[simp] theorem accept_rspData (w : Word) (q : Seq) (s : State) : (s.accept w q).rspData = s.rspData := rfl
@[simp] theorem accept_fb (w : Word) (q : Seq) (s : State) : (s.accept w q).fb = s.fb := rfl
@[simp] theorem accept_dirtyMin (w : Word) (q : Seq) (s : State) : (s.accept w q).dirtyMin = s.dirtyMin := rfl
@[simp] theorem accept_dirtyMax (w : Word) (q : Seq) (s : State) : (s.accept w q).dirtyMax = s.dirtyMax := rfl
@[simp] theorem accept_dc (w : Word) (q : Seq) (s : State) : (s.accept w q).dc = s.dc := rfl
@[simp] theorem accept_rst (w : Word) (q : Seq) (s : State) : (s.accept w q).rst = s.rst := rfl
@[simp] theorem accept_seq (w : Word) (q : Seq) (s : State) : (s.accept w q).seq = q := rfl
@[simp] theorem accept_initIdx (w : Word) (q : Seq) (s : State) : (s.accept w q).initIdx = s.initIdx := rfl
@[simp] theorem accept_chunk (w : Word) (q : Seq) (s : State) : (s.accept w q).chunk = s.chunk := rfl
@[simp] theorem accept_werr (w : Word) (q : Seq) (s : State) : (s.accept w q).werr = s.werr := rfl
@[simp] theorem accept_offered (w : Word) (q : Seq) (s : State) : (s.accept w q).offered = none := rfl
@[simp] theorem accept_outstanding (w : Word) (q : Seq) (s : State) : (s.accept w q).outstanding = s.outstanding := rfl
@[simp] theorem accept_src (w : Word) (q : Seq) (s : State) : (s.accept w q).src = s.src := rfl
@[simp] theorem accept_inputs (w : Word) (q : Seq) (s : State) : (s.accept w q).inputs = s.inputs := rfl
@[simp] theorem accept_params (w : Word) (q : Seq) (s : State) : (s.accept w q).params = s.params := rfl
@[simp] theorem accept_trace (w : Word) (q : Seq) (s : State) : (s.accept w q).trace = s.trace := rfl
@[simp] theorem accept_responses (w : Word) (q : Seq) (s : State) : (s.accept w q).responses = s.responses := rfl

@[simp] theorem fbInit_drv (s : State) : (fbInit s).drv = s.drv := rfl
@[simp] theorem fbInit_busy (s : State) : (fbInit s).busy = s.busy := rfl
@[simp] theorem fbInit_cmd (s : State) : (fbInit s).cmd = s.cmd := rfl
@[simp] theorem fbInit_rspStatus (s : State) : (fbInit s).rspStatus = s.rspStatus := rfl
@[simp] theorem fbInit_rspData (s : State) : (fbInit s).rspData = s.rspData := rfl
@[simp] theorem fbInit_fb (s : State) : (fbInit s).fb = s.fb.zeroRange 0 20480 := rfl
@[simp] theorem fbInit_dirtyMin (s : State) : (fbInit s).dirtyMin = 0xFFFF#16 := rfl
@[simp] theorem fbInit_dirtyMax (s : State) : (fbInit s).dirtyMax = 0xFFFF#16 := rfl
@[simp] theorem fbInit_dc (s : State) : (fbInit s).dc = s.dc := rfl
@[simp] theorem fbInit_rst (s : State) : (fbInit s).rst = s.rst := rfl
@[simp] theorem fbInit_seq (s : State) : (fbInit s).seq = s.seq := rfl
@[simp] theorem fbInit_initIdx (s : State) : (fbInit s).initIdx = s.initIdx := rfl
@[simp] theorem fbInit_chunk (s : State) : (fbInit s).chunk = s.chunk := rfl
@[simp] theorem fbInit_werr (s : State) : (fbInit s).werr = s.werr := rfl
@[simp] theorem fbInit_offered (s : State) : (fbInit s).offered = s.offered := rfl
@[simp] theorem fbInit_outstanding (s : State) : (fbInit s).outstanding = s.outstanding := rfl
@[simp] theorem fbInit_src (s : State) : (fbInit s).src = s.src := rfl
@[simp] theorem fbInit_inputs (s : State) : (fbInit s).inputs = s.inputs := rfl
@[simp] theorem fbInit_params (s : State) : (fbInit s).params = s.params := rfl
@[simp] theorem fbInit_trace (s : State) : (fbInit s).trace = s.trace := rfl
@[simp] theorem fbInit_responses (s : State) : (fbInit s).responses = s.responses := rfl

@[simp] theorem initFails_drv (e : Status) (s : State) : (initFails e s).drv = .failed := rfl
@[simp] theorem initFails_busy (e : Status) (s : State) : (initFails e s).busy = false := rfl
@[simp] theorem initFails_cmd (e : Status) (s : State) : (initFails e s).cmd = s.cmd := rfl
@[simp] theorem initFails_rspStatus (e : Status) (s : State) : (initFails e s).rspStatus = e := rfl
@[simp] theorem initFails_rspData (e : Status) (s : State) : (initFails e s).rspData = 0x00#8 := rfl
@[simp] theorem initFails_fb (e : Status) (s : State) : (initFails e s).fb = s.fb := rfl
@[simp] theorem initFails_dirtyMin (e : Status) (s : State) : (initFails e s).dirtyMin = s.dirtyMin := rfl
@[simp] theorem initFails_dirtyMax (e : Status) (s : State) : (initFails e s).dirtyMax = s.dirtyMax := rfl
@[simp] theorem initFails_dc (e : Status) (s : State) : (initFails e s).dc = s.dc := rfl
@[simp] theorem initFails_rst (e : Status) (s : State) : (initFails e s).rst = s.rst := rfl
@[simp] theorem initFails_seq (e : Status) (s : State) : (initFails e s).seq = .idle := rfl
@[simp] theorem initFails_initIdx (e : Status) (s : State) : (initFails e s).initIdx = s.initIdx := rfl
@[simp] theorem initFails_chunk (e : Status) (s : State) : (initFails e s).chunk = s.chunk := rfl
@[simp] theorem initFails_werr (e : Status) (s : State) : (initFails e s).werr = s.werr := rfl
@[simp] theorem initFails_offered (e : Status) (s : State) : (initFails e s).offered = s.offered := rfl
@[simp] theorem initFails_outstanding (e : Status) (s : State) : (initFails e s).outstanding = s.outstanding := rfl
@[simp] theorem initFails_src (e : Status) (s : State) : (initFails e s).src = s.src := rfl
@[simp] theorem initFails_inputs (e : Status) (s : State) : (initFails e s).inputs = s.inputs := rfl
@[simp] theorem initFails_params (e : Status) (s : State) : (initFails e s).params = s.params := rfl
@[simp] theorem initFails_trace (e : Status) (s : State) : (initFails e s).trace = s.trace := rfl
@[simp] theorem initFails_responses (e : Status) (s : State) : (initFails e s).responses = s.responses ++ [⟨e, 0x00#8⟩] := rfl

@[simp] theorem noteFailure_drv (b : Bool) (s : State) : (noteFailure b s).drv = s.drv := rfl
@[simp] theorem noteFailure_busy (b : Bool) (s : State) : (noteFailure b s).busy = s.busy := rfl
@[simp] theorem noteFailure_cmd (b : Bool) (s : State) : (noteFailure b s).cmd = s.cmd := rfl
@[simp] theorem noteFailure_rspStatus (b : Bool) (s : State) : (noteFailure b s).rspStatus = s.rspStatus := rfl
@[simp] theorem noteFailure_rspData (b : Bool) (s : State) : (noteFailure b s).rspData = s.rspData := rfl
@[simp] theorem noteFailure_fb (b : Bool) (s : State) : (noteFailure b s).fb = s.fb := rfl
@[simp] theorem noteFailure_dirtyMin (b : Bool) (s : State) : (noteFailure b s).dirtyMin = s.dirtyMin := rfl
@[simp] theorem noteFailure_dirtyMax (b : Bool) (s : State) : (noteFailure b s).dirtyMax = s.dirtyMax := rfl
@[simp] theorem noteFailure_dc (b : Bool) (s : State) : (noteFailure b s).dc = s.dc := rfl
@[simp] theorem noteFailure_rst (b : Bool) (s : State) : (noteFailure b s).rst = s.rst := rfl
@[simp] theorem noteFailure_seq (b : Bool) (s : State) : (noteFailure b s).seq = s.seq := rfl
@[simp] theorem noteFailure_initIdx (b : Bool) (s : State) : (noteFailure b s).initIdx = s.initIdx := rfl
@[simp] theorem noteFailure_chunk (b : Bool) (s : State) : (noteFailure b s).chunk = s.chunk := rfl
@[simp] theorem noteFailure_werr (b : Bool) (s : State) : (noteFailure b s).werr = (s.werr || !b) := rfl
@[simp] theorem noteFailure_offered (b : Bool) (s : State) : (noteFailure b s).offered = s.offered := rfl
@[simp] theorem noteFailure_outstanding (b : Bool) (s : State) : (noteFailure b s).outstanding = s.outstanding := rfl
@[simp] theorem noteFailure_src (b : Bool) (s : State) : (noteFailure b s).src = s.src := rfl
@[simp] theorem noteFailure_inputs (b : Bool) (s : State) : (noteFailure b s).inputs = s.inputs := rfl
@[simp] theorem noteFailure_params (b : Bool) (s : State) : (noteFailure b s).params = s.params := rfl
@[simp] theorem noteFailure_trace (b : Bool) (s : State) : (noteFailure b s).trace = s.trace := rfl
@[simp] theorem noteFailure_responses (b : Bool) (s : State) : (noteFailure b s).responses = s.responses := rfl

@[simp] theorem transmit_drv (p : List Byte) (s : State) : (transmit p s).drv = s.drv := rfl
@[simp] theorem transmit_busy (p : List Byte) (s : State) : (transmit p s).busy = s.busy := rfl
@[simp] theorem transmit_cmd (p : List Byte) (s : State) : (transmit p s).cmd = s.cmd := rfl
@[simp] theorem transmit_rspStatus (p : List Byte) (s : State) : (transmit p s).rspStatus = s.rspStatus := rfl
@[simp] theorem transmit_rspData (p : List Byte) (s : State) : (transmit p s).rspData = s.rspData := rfl
@[simp] theorem transmit_fb (p : List Byte) (s : State) : (transmit p s).fb = s.fb := rfl
@[simp] theorem transmit_dirtyMin (p : List Byte) (s : State) : (transmit p s).dirtyMin = s.dirtyMin := rfl
@[simp] theorem transmit_dirtyMax (p : List Byte) (s : State) : (transmit p s).dirtyMax = s.dirtyMax := rfl
@[simp] theorem transmit_dc (p : List Byte) (s : State) : (transmit p s).dc = s.dc := rfl
@[simp] theorem transmit_rst (p : List Byte) (s : State) : (transmit p s).rst = s.rst := rfl
@[simp] theorem transmit_seq (p : List Byte) (s : State) : (transmit p s).seq = s.seq := rfl
@[simp] theorem transmit_initIdx (p : List Byte) (s : State) : (transmit p s).initIdx = s.initIdx := rfl
@[simp] theorem transmit_chunk (p : List Byte) (s : State) : (transmit p s).chunk = s.chunk := rfl
@[simp] theorem transmit_werr (p : List Byte) (s : State) : (transmit p s).werr = s.werr := rfl
@[simp] theorem transmit_offered (p : List Byte) (s : State) : (transmit p s).offered = s.offered := rfl
@[simp] theorem transmit_outstanding (p : List Byte) (s : State) : (transmit p s).outstanding = some (.transmit p (8 * p.length) s.dc) := rfl
@[simp] theorem transmit_src (p : List Byte) (s : State) : (transmit p s).src = s.src := rfl
@[simp] theorem transmit_inputs (p : List Byte) (s : State) : (transmit p s).inputs = s.inputs := rfl
@[simp] theorem transmit_params (p : List Byte) (s : State) : (transmit p s).params = s.params := rfl
@[simp] theorem transmit_trace (p : List Byte) (s : State) : (transmit p s).trace = s.trace := rfl
@[simp] theorem transmit_responses (p : List Byte) (s : State) : (transmit p s).responses = s.responses := rfl

@[simp] theorem writeCd_drv (v : Byte) (d : Bool) (s : State) : (writeCd v d s).drv = s.drv := rfl
@[simp] theorem writeCd_busy (v : Byte) (d : Bool) (s : State) : (writeCd v d s).busy = s.busy := rfl
@[simp] theorem writeCd_cmd (v : Byte) (d : Bool) (s : State) : (writeCd v d s).cmd = s.cmd := rfl
@[simp] theorem writeCd_rspStatus (v : Byte) (d : Bool) (s : State) : (writeCd v d s).rspStatus = s.rspStatus := rfl
@[simp] theorem writeCd_rspData (v : Byte) (d : Bool) (s : State) : (writeCd v d s).rspData = s.rspData := rfl
@[simp] theorem writeCd_fb (v : Byte) (d : Bool) (s : State) : (writeCd v d s).fb = s.fb := rfl
@[simp] theorem writeCd_dirtyMin (v : Byte) (d : Bool) (s : State) : (writeCd v d s).dirtyMin = s.dirtyMin := rfl
@[simp] theorem writeCd_dirtyMax (v : Byte) (d : Bool) (s : State) : (writeCd v d s).dirtyMax = s.dirtyMax := rfl
@[simp] theorem writeCd_dc (v : Byte) (d : Bool) (s : State) : (writeCd v d s).dc = dcLevel d := rfl
@[simp] theorem writeCd_rst (v : Byte) (d : Bool) (s : State) : (writeCd v d s).rst = s.rst := rfl
@[simp] theorem writeCd_seq (v : Byte) (d : Bool) (s : State) : (writeCd v d s).seq = s.seq := rfl
@[simp] theorem writeCd_initIdx (v : Byte) (d : Bool) (s : State) : (writeCd v d s).initIdx = s.initIdx := rfl
@[simp] theorem writeCd_chunk (v : Byte) (d : Bool) (s : State) : (writeCd v d s).chunk = s.chunk := rfl
@[simp] theorem writeCd_werr (v : Byte) (d : Bool) (s : State) : (writeCd v d s).werr = s.werr := rfl
@[simp] theorem writeCd_offered (v : Byte) (d : Bool) (s : State) : (writeCd v d s).offered = s.offered := rfl
@[simp] theorem writeCd_outstanding (v : Byte) (d : Bool) (s : State) : (writeCd v d s).outstanding = some (.transmit [v] 8 (dcLevel d)) := rfl
@[simp] theorem writeCd_src (v : Byte) (d : Bool) (s : State) : (writeCd v d s).src = s.src := rfl
@[simp] theorem writeCd_inputs (v : Byte) (d : Bool) (s : State) : (writeCd v d s).inputs = s.inputs := rfl
@[simp] theorem writeCd_params (v : Byte) (d : Bool) (s : State) : (writeCd v d s).params = s.params := rfl
@[simp] theorem writeCd_trace (v : Byte) (d : Bool) (s : State) : (writeCd v d s).trace = s.trace := rfl
@[simp] theorem writeCd_responses (v : Byte) (d : Bool) (s : State) : (writeCd v d s).responses = s.responses := rfl

@[simp] theorem responded_drv (st : Status) (d : Byte) (s : State) : (s.responded st d).drv = s.drv := rfl
@[simp] theorem responded_busy (st : Status) (d : Byte) (s : State) : (s.responded st d).busy = false := rfl
@[simp] theorem responded_cmd (st : Status) (d : Byte) (s : State) : (s.responded st d).cmd = s.cmd := rfl
@[simp] theorem responded_rspStatus (st : Status) (d : Byte) (s : State) : (s.responded st d).rspStatus = st := rfl
@[simp] theorem responded_rspData (st : Status) (d : Byte) (s : State) : (s.responded st d).rspData = d := rfl
@[simp] theorem responded_fb (st : Status) (d : Byte) (s : State) : (s.responded st d).fb = s.fb := rfl
@[simp] theorem responded_dirtyMin (st : Status) (d : Byte) (s : State) : (s.responded st d).dirtyMin = s.dirtyMin := rfl
@[simp] theorem responded_dirtyMax (st : Status) (d : Byte) (s : State) : (s.responded st d).dirtyMax = s.dirtyMax := rfl
@[simp] theorem responded_dc (st : Status) (d : Byte) (s : State) : (s.responded st d).dc = s.dc := rfl
@[simp] theorem responded_rst (st : Status) (d : Byte) (s : State) : (s.responded st d).rst = s.rst := rfl
@[simp] theorem responded_seq (st : Status) (d : Byte) (s : State) : (s.responded st d).seq = .idle := rfl
@[simp] theorem responded_initIdx (st : Status) (d : Byte) (s : State) : (s.responded st d).initIdx = s.initIdx := rfl
@[simp] theorem responded_chunk (st : Status) (d : Byte) (s : State) : (s.responded st d).chunk = s.chunk := rfl
@[simp] theorem responded_werr (st : Status) (d : Byte) (s : State) : (s.responded st d).werr = s.werr := rfl
@[simp] theorem responded_offered (st : Status) (d : Byte) (s : State) : (s.responded st d).offered = s.offered := rfl
@[simp] theorem responded_outstanding (st : Status) (d : Byte) (s : State) : (s.responded st d).outstanding = s.outstanding := rfl
@[simp] theorem responded_src (st : Status) (d : Byte) (s : State) : (s.responded st d).src = s.src := rfl
@[simp] theorem responded_inputs (st : Status) (d : Byte) (s : State) : (s.responded st d).inputs = s.inputs := rfl
@[simp] theorem responded_params (st : Status) (d : Byte) (s : State) : (s.responded st d).params = s.params := rfl
@[simp] theorem responded_trace (st : Status) (d : Byte) (s : State) : (s.responded st d).trace = s.trace := rfl
@[simp] theorem responded_responses (st : Status) (d : Byte) (s : State) : (s.responded st d).responses = s.responses ++ [⟨st, d⟩] := rfl

@[simp] theorem nextChunk_drv (s : State) : (nextChunk s).drv = s.drv := by unfold nextChunk; split <;> rfl
@[simp] theorem nextChunk_busy (s : State) : (nextChunk s).busy = s.busy := by unfold nextChunk; split <;> rfl
@[simp] theorem nextChunk_cmd (s : State) : (nextChunk s).cmd = s.cmd := by unfold nextChunk; split <;> rfl
@[simp] theorem nextChunk_rspStatus (s : State) : (nextChunk s).rspStatus = s.rspStatus := by unfold nextChunk; split <;> rfl
@[simp] theorem nextChunk_rspData (s : State) : (nextChunk s).rspData = s.rspData := by unfold nextChunk; split <;> rfl
@[simp] theorem nextChunk_fb (s : State) : (nextChunk s).fb = s.fb := by unfold nextChunk; split <;> rfl
@[simp] theorem nextChunk_dirtyMin (s : State) : (nextChunk s).dirtyMin = s.dirtyMin := by unfold nextChunk; split <;> rfl
@[simp] theorem nextChunk_dirtyMax (s : State) : (nextChunk s).dirtyMax = s.dirtyMax := by unfold nextChunk; split <;> rfl
@[simp] theorem nextChunk_dc (s : State) : (nextChunk s).dc = s.dc := by unfold nextChunk; split <;> rfl
@[simp] theorem nextChunk_rst (s : State) : (nextChunk s).rst = s.rst := by unfold nextChunk; split <;> rfl
@[simp] theorem nextChunk_seq (s : State) : (nextChunk s).seq = s.seq := by unfold nextChunk; split <;> rfl
@[simp] theorem nextChunk_initIdx (s : State) : (nextChunk s).initIdx = s.initIdx := by unfold nextChunk; split <;> rfl
@[simp] theorem nextChunk_werr (s : State) : (nextChunk s).werr = s.werr := by unfold nextChunk; split <;> rfl
@[simp] theorem nextChunk_offered (s : State) : (nextChunk s).offered = s.offered := by unfold nextChunk; split <;> rfl
@[simp] theorem nextChunk_outstanding (s : State) : (nextChunk s).outstanding = s.outstanding := by unfold nextChunk; split <;> rfl
@[simp] theorem nextChunk_src (s : State) : (nextChunk s).src = s.src := by unfold nextChunk; split <;> rfl
@[simp] theorem nextChunk_inputs (s : State) : (nextChunk s).inputs = s.inputs := by unfold nextChunk; split <;> rfl
@[simp] theorem nextChunk_params (s : State) : (nextChunk s).params = s.params := by unfold nextChunk; split <;> rfl
@[simp] theorem nextChunk_trace (s : State) : (nextChunk s).trace = s.trace := by unfold nextChunk; split <;> rfl
@[simp] theorem nextChunk_responses (s : State) : (nextChunk s).responses = s.responses := by unfold nextChunk; split <;> rfl

@[simp] theorem record_drv (answer : Request → Option Answer) (s : State) : (s.record answer).drv = s.drv := by unfold State.record; split <;> rfl
@[simp] theorem record_busy (answer : Request → Option Answer) (s : State) : (s.record answer).busy = s.busy := by unfold State.record; split <;> rfl
@[simp] theorem record_cmd (answer : Request → Option Answer) (s : State) : (s.record answer).cmd = s.cmd := by unfold State.record; split <;> rfl
@[simp] theorem record_rspStatus (answer : Request → Option Answer) (s : State) : (s.record answer).rspStatus = s.rspStatus := by unfold State.record; split <;> rfl
@[simp] theorem record_rspData (answer : Request → Option Answer) (s : State) : (s.record answer).rspData = s.rspData := by unfold State.record; split <;> rfl
@[simp] theorem record_fb (answer : Request → Option Answer) (s : State) : (s.record answer).fb = s.fb := by unfold State.record; split <;> rfl
@[simp] theorem record_dirtyMin (answer : Request → Option Answer) (s : State) : (s.record answer).dirtyMin = s.dirtyMin := by unfold State.record; split <;> rfl
@[simp] theorem record_dirtyMax (answer : Request → Option Answer) (s : State) : (s.record answer).dirtyMax = s.dirtyMax := by unfold State.record; split <;> rfl
@[simp] theorem record_dc (answer : Request → Option Answer) (s : State) : (s.record answer).dc = s.dc := by unfold State.record; split <;> rfl
@[simp] theorem record_rst (answer : Request → Option Answer) (s : State) : (s.record answer).rst = s.rst := by unfold State.record; split <;> rfl
@[simp] theorem record_seq (answer : Request → Option Answer) (s : State) : (s.record answer).seq = s.seq := by unfold State.record; split <;> rfl
@[simp] theorem record_initIdx (answer : Request → Option Answer) (s : State) : (s.record answer).initIdx = s.initIdx := by unfold State.record; split <;> rfl
@[simp] theorem record_chunk (answer : Request → Option Answer) (s : State) : (s.record answer).chunk = s.chunk := by unfold State.record; split <;> rfl
@[simp] theorem record_werr (answer : Request → Option Answer) (s : State) : (s.record answer).werr = s.werr := by unfold State.record; split <;> rfl
@[simp] theorem record_offered (answer : Request → Option Answer) (s : State) : (s.record answer).offered = s.offered := by unfold State.record; split <;> rfl
@[simp] theorem record_outstanding (answer : Request → Option Answer) (s : State) : (s.record answer).outstanding = none := by unfold State.record; split <;> simp_all
@[simp] theorem record_src (answer : Request → Option Answer) (s : State) : (s.record answer).src = s.src := by unfold State.record; split <;> rfl
@[simp] theorem record_inputs (answer : Request → Option Answer) (s : State) : (s.record answer).inputs = s.inputs := by unfold State.record; split <;> rfl
@[simp] theorem record_params (answer : Request → Option Answer) (s : State) : (s.record answer).params = s.params := by unfold State.record; split <;> rfl
@[simp] theorem record_responses (answer : Request → Option Answer) (s : State) : (s.record answer).responses = s.responses := by unfold State.record; split <;> rfl

/-- A completion is the state `responded` describes. -/
theorem complete_eq_responded (st : Status) (d : Byte) (s : State) : complete st d s = s.responded st d := rfl

/-- An answered request is recorded at the end of the trace with the level RST has. -/
theorem record_trace_of_some (answer : Request → Option Answer) (s : State) (r : Request) (h : s.outstanding = some r) :
    (s.record answer).trace = s.trace ++ [{ request := r, rst := s.rst, answer := answer r }] := by
  simp [State.record, h]

/-- Without an outstanding request there is nothing to record. -/
theorem record_of_none (answer : Request → Option Answer) (s : State) (h : s.outstanding = none) : s.record answer = s := by
  simp [State.record, h]

/-- CHUNK counts up while chunks are left. -/
theorem nextChunk_chunk (s : State) (h : s.chunk.val < 40) : (nextChunk s).chunk.val = s.chunk.val + 1 := by
  simp [nextChunk, h]

end Sys2Proof.Machine
end

