-- ==== Sys2Proof/Laws/Framebuffer.lean ====
section
/-! SUPPORT. Laws/Framebuffer.lean: the shared ready check, the panel and pattern checks, and what the conversion gives. -/

namespace Sys2Proof.Machine

/-- In READY the command's rule runs. -/
theorem requireReady_of_ready (s : State) (rule : State → State) (h : s.drv = .ready) :
    requireReady s rule = .next (rule s) := if_pos h

/-- Outside READY the command is rejected with ERR_STATE. -/
theorem requireReady_of_not_ready (s : State) (rule : State → State) (h : s.drv ≠ .ready) :
    requireReady s rule = .next (s.responded .errState 0x00#8) := if_neg h

/-- FbInit leaves an FB that lists nothing. -/
theorem fbInit_fb_eq_nil (s : State) (h : s.fb.below Config.fbSize) : (fbInit s).fb = [] := Memory.zeroRange_all h

theorem inPanel_iff (x y : Nat) : inPanel x y = true ↔ x < 240 ∧ y < 160 := by simp [inPanel]

theorem legalPat_iff (p : Byte) : legalPat p = true ↔ p ∈ [0x00#8, 0x08#8, 0x10#8, 0x1C#8] := by
  simp [legalPat, or_assoc]

theorem fieldOf_packInverted_even (a b : Level) : fieldOf (packInverted a b) 0 = 0x1C#8 ^^^ pat a := by
  cases a <;> cases b <;> decide

theorem fieldOf_packInverted_odd (a b : Level) : fieldOf (packInverted a b) 3 = 0x1C#8 ^^^ pat b := by
  cases a <;> cases b <;> decide

theorem lowBits_packInverted (a b : Level) : packInverted a b &&& 0x03#8 = 0x03#8 := by
  cases a <;> cases b <;> decide

end Sys2Proof.Machine
end

