-- ==== Sys2Proof/Laws/PerInstr.lean ====
section
/-! SUPPORT. Laws/PerInstr.lean: the per-command families of LAWS.json. EncodedOpcode: the opcode field of a command's word is the
opcode 30_encoding.md R73 gives it. -/

namespace Sys2Proof.Laws.EncodedOpcode

/-- Bits [31:28] of the word of a well-formed command are its opcode. -/
def Statement (i : Instr) : Prop := i.WellFormed → bits (encode i) 31 28 = i.opcode

theorem init : Statement .init := by intro _; decide

theorem clear (rs re : Nat) : Statement (.clear rs re) := by
  intro h
  simp only [Instr.WellFormed, Instr.wellFormed, Bool.and_eq_true, decide_eq_true_eq] at h
  rw [bits_encode]
  simp only [Instr.wordValue, Instr.opcode]
  omega

theorem blank : Statement .blank := by intro _; decide

theorem setPixel (x y : Nat) (p : Byte) : Statement (.setPixel x y p) := by
  intro h
  have hp := p.isLt
  simp only [Instr.WellFormed, Instr.wellFormed, Bool.and_eq_true, decide_eq_true_eq] at h
  rw [bits_encode]
  simp only [Instr.wordValue, Instr.opcode]
  omega

theorem loadImage (len : Nat) : Statement (.loadImage len) := by
  intro h
  simp only [Instr.WellFormed, Instr.wellFormed, decide_eq_true_eq] at h
  rw [bits_encode]
  simp only [Instr.wordValue, Instr.opcode]
  omega

theorem refresh (s : Bool) : Statement (.refresh s) := by intro _; cases s <;> decide

theorem halt : Statement .halt := by intro _; decide

theorem readByte (addr : Nat) : Statement (.readByte addr) := by
  intro h
  simp only [Instr.WellFormed, Instr.wellFormed, decide_eq_true_eq] at h
  rw [bits_encode]
  simp only [Instr.wordValue, Instr.opcode]
  omega

theorem getPixel (x y : Nat) : Statement (.getPixel x y) := by
  intro h
  simp only [Instr.WellFormed, Instr.wellFormed, Bool.and_eq_true, decide_eq_true_eq] at h
  rw [bits_encode]
  simp only [Instr.wordValue, Instr.opcode]
  omega

end Sys2Proof.Laws.EncodedOpcode
end

