-- ==== Sys2Proof/Laws/Sequencer.lean ====
section
/-! SUPPORT. Laws/Sequencer.lean: what one row of the INIT and REFRESH tables does, and how a run is put together from rows: a row
with a request takes one answer (`runSequencer_answer`), a row without one goes straight on (`runSequencer_initLines`, ...), and
without an answer the run stops waiting (`runSequencer_waits`). -/

namespace Sys2Proof.Machine

/-! ### The rows of 41_sequencer.md R152 and R154, one equation each -/

theorem rowRequest_initBus (s : State) (h : s.seq = .initBus) : rowRequest s = some (.busInit 10000000 0 7) := by
  simp [rowRequest, h]

theorem rowAction_initBus (s : State) (h : s.seq = .initBus) : rowAction s = s.issue (.busInit 10000000 0 7) := by
  simp [rowAction, h]

theorem rowAnswered_initBus (s : State) (b : Bool) (h : s.seq = .initBus) :
    rowAnswered b s = if b then s.goto .initLines else initFails .errTransportInit s := by
  simp [rowAnswered, h]

theorem rowRequest_initLines (s : State) (h : s.seq = .initLines) : rowRequest s = none := by
  simp [rowRequest, h]

theorem rowAction_initLines (s : State) (h : s.seq = .initLines) : rowAction s = ((s.setDc .low).setRst .high).goto .initZero := by
  simp [rowAction, h]

theorem rowAnswered_initLines (s : State) (b : Bool) (h : s.seq = .initLines) :
    rowAnswered b s = s := by
  simp [rowAnswered, h]

theorem rowRequest_initZero (s : State) (h : s.seq = .initZero) : rowRequest s = none := by
  simp [rowRequest, h]

theorem rowAction_initZero (s : State) (h : s.seq = .initZero) : rowAction s = (fbInit s).goto .initRstHi := by
  simp [rowAction, h]

theorem rowAnswered_initZero (s : State) (b : Bool) (h : s.seq = .initZero) :
    rowAnswered b s = s := by
  simp [rowAnswered, h]

theorem rowRequest_initRstHi (s : State) (h : s.seq = .initRstHi) : rowRequest s = some (.sleep 80) := by
  simp [rowRequest, h]

theorem rowAction_initRstHi (s : State) (h : s.seq = .initRstHi) : rowAction s = s.issue (.sleep 80) := by
  simp [rowAction, h]

theorem rowAnswered_initRstHi (s : State) (b : Bool) (h : s.seq = .initRstHi) :
    rowAnswered b s = s.goto .initRstLo := by
  simp [rowAnswered, h]

theorem rowRequest_initRstLo (s : State) (h : s.seq = .initRstLo) : rowRequest s = some (.sleep 80) := by
  simp [rowRequest, h]

theorem rowAction_initRstLo (s : State) (h : s.seq = .initRstLo) : rowAction s = (s.setRst .low).issue (.sleep 80) := by
  simp [rowAction, h]

theorem rowAnswered_initRstLo (s : State) (b : Bool) (h : s.seq = .initRstLo) :
    rowAnswered b s = s.goto .initRstRel := by
  simp [rowAnswered, h]

theorem rowRequest_initRstRel (s : State) (h : s.seq = .initRstRel) : rowRequest s = some (.sleep 150) := by
  simp [rowRequest, h]

theorem rowAction_initRstRel (s : State) (h : s.seq = .initRstRel) : rowAction s = (s.setRst .high).issue (.sleep 150) := by
  simp [rowAction, h]

theorem rowAnswered_initRstRel (s : State) (b : Bool) (h : s.seq = .initRstRel) :
    rowAnswered b s = { s.goto .initCmds with initIdx := 0 } := by
  simp [rowAnswered, h]

theorem rowRequest_refBlank (s : State) (h : s.seq = .refBlank) : rowRequest s = some (.transmit [0x28#8] 8 .low) := by
  simp [rowRequest, h]

theorem rowAction_refBlank (s : State) (h : s.seq = .refBlank) : rowAction s = writeCd 0x28#8 false s := by
  simp [rowAction, h]

theorem rowAnswered_refBlank (s : State) (b : Bool) (h : s.seq = .refBlank) :
    rowAnswered b s = (noteFailure b s).goto .refWindow := by
  simp [rowAnswered, h]

theorem rowRequest_refWindow (s : State) (h : s.seq = .refWindow) : rowRequest s = some (.transmit s.params.windowBlock.toList 112 .low) := by
  simp [rowRequest, h]

theorem rowAction_refWindow (s : State) (h : s.seq = .refWindow) : rowAction s = transmit s.params.windowBlock.toList (s.setDc .low) := by
  simp [rowAction, h]

theorem rowAnswered_refWindow (s : State) (b : Bool) (h : s.seq = .refWindow) :
    rowAnswered b s = { (noteFailure b s).goto .refData with chunk := 0 } := by
  simp [rowAnswered, h]

theorem rowRequest_refUnblank (s : State) (h : s.seq = .refUnblank) : rowRequest s = some (.transmit [0x29#8] 8 .low) := by
  simp [rowRequest, h]

theorem rowAction_refUnblank (s : State) (h : s.seq = .refUnblank) : rowAction s = writeCd 0x29#8 false s := by
  simp [rowAction, h]

theorem rowAnswered_refUnblank (s : State) (b : Bool) (h : s.seq = .refUnblank) :
    rowAnswered b s = complete (if (noteFailure b s).werr then .errTransportWrite else .ok) 0x00#8 (noteFailure b s) := by
  simp [rowAnswered, h]

theorem rowRequest_initCmds (s : State) (e : InitEntry) (h : s.seq = .initCmds)
    (he : s.params.initSeq[s.initIdx]? = some e) :
    rowRequest s = some (.transmit [e.value] 8 (dcLevel e.isData)) := by
  simp [rowRequest, h, he]

theorem rowAction_initCmds (s : State) (e : InitEntry) (h : s.seq = .initCmds)
    (he : s.params.initSeq[s.initIdx]? = some e) : rowAction s = writeCd e.value e.isData s := by
  simp [rowAction, h, he]

theorem rowRequest_initCmds_end (s : State) (h : s.seq = .initCmds)
    (he : s.params.initSeq[s.initIdx]? = none) : rowRequest s = none := by
  simp [rowRequest, h, he]

theorem rowAction_initCmds_end (s : State) (h : s.seq = .initCmds)
    (he : s.params.initSeq[s.initIdx]? = none) : rowAction s = ok 0x00#8 { s with drv := .ready } := by
  simp [rowAction, h, he]

theorem rowAnswered_initCmds (s : State) (b : Bool) (h : s.seq = .initCmds) :
    rowAnswered b s =
      if b then { s with initIdx := s.initIdx + 1 } else initFails .errTransportWrite s := by
  simp [rowAnswered, h]

theorem rowRequest_refData (s : State) (h : s.seq = .refData) (hk : s.chunk.val < 40) :
    rowRequest s = some (.transmit (chunkPayload s s.chunk.val) 4096 .high) := by
  simp [rowRequest, h, hk]

theorem rowAction_refData (s : State) (h : s.seq = .refData) (hk : s.chunk.val < 40) :
    rowAction s = transmit (chunkPayload s s.chunk.val) (s.setDc .high) := by
  simp [rowAction, h, hk]

theorem rowRequest_refData_end (s : State) (h : s.seq = .refData) (hk : ¬s.chunk.val < 40) :
    rowRequest s = none := by
  simp [rowRequest, h, hk]

theorem rowAction_refData_end (s : State) (h : s.seq = .refData) (hk : ¬s.chunk.val < 40) :
    rowAction s = s.goto .refUnblank := by
  simp [rowAction, h, hk]

theorem rowAnswered_refData (s : State) (b : Bool) (h : s.seq = .refData) :
    rowAnswered b s = nextChunk (noteFailure b s) := by
  simp [rowAnswered, h]

theorem rowRequest_idle (s : State) (h : s.seq = .idle) : rowRequest s = none := by simp [rowRequest, h]

theorem rowRequest_exec (s : State) (h : s.seq = .exec) : rowRequest s = none := by simp [rowRequest, h]

theorem hasRow_idle (s : State) (h : s.seq = .idle) : hasRow s = false := by simp [hasRow, h]

@[simp] theorem length_chunkPayload (s : State) (k : Nat) : (chunkPayload s k).length = 512 := by
  simp [chunkPayload]

/-- What a row with a request does: it issues that request, sets lines, and changes nothing else. -/
theorem rowAction_of_request (s : State) (r : Request) (h : rowRequest s = some r) :
    ∃ dc rst, rowAction s = { s with dc := dc, rst := rst, outstanding := some r } := by
  cases hq : s.seq
  case idle => simp [rowRequest, hq] at h
  case exec => simp [rowRequest, hq] at h
  case initLines => simp [rowRequest, hq] at h
  case initZero => simp [rowRequest, hq] at h
  case initBus => rw [rowRequest_initBus s hq] at h; cases h; exact ⟨s.dc, s.rst, by rw [rowAction_initBus s hq, ← hq]; rfl⟩
  case initRstHi => rw [rowRequest_initRstHi s hq] at h; cases h; exact ⟨s.dc, s.rst, by rw [rowAction_initRstHi s hq, ← hq]; rfl⟩
  case initRstLo => rw [rowRequest_initRstLo s hq] at h; cases h; exact ⟨s.dc, .low, by rw [rowAction_initRstLo s hq, ← hq]; rfl⟩
  case initRstRel => rw [rowRequest_initRstRel s hq] at h; cases h; exact ⟨s.dc, .high, by rw [rowAction_initRstRel s hq, ← hq]; rfl⟩
  case initCmds =>
    cases he : s.params.initSeq[s.initIdx]? with
    | none => rw [rowRequest_initCmds_end s hq he] at h; cases h
    | some e =>
      rw [rowRequest_initCmds s e hq he] at h
      cases h
      exact ⟨dcLevel e.isData, s.rst, by rw [rowAction_initCmds s e hq he, ← hq]; rfl⟩
  case refBlank => rw [rowRequest_refBlank s hq] at h; cases h; exact ⟨.low, s.rst, by rw [rowAction_refBlank s hq, ← hq]; rfl⟩
  case refWindow =>
    rw [rowRequest_refWindow s hq] at h
    cases h
    refine ⟨.low, s.rst, ?_⟩
    rw [rowAction_refWindow s hq, ← hq]
    simp [transmit, State.issue, State.setDc]
  case refData =>
    by_cases hk : s.chunk.val < 40
    · rw [rowRequest_refData s hq hk] at h
      cases h
      refine ⟨.high, s.rst, ?_⟩
      rw [rowAction_refData s hq hk, ← hq]
      simp [transmit, State.issue, State.setDc]
    · rw [rowRequest_refData_end s hq hk] at h; cases h
  case refUnblank => rw [rowRequest_refUnblank s hq] at h; cases h; exact ⟨.low, s.rst, by rw [rowAction_refUnblank s hq, ← hq]; rfl⟩

/-- A row that has a request issues exactly that request. -/
theorem rowAction_outstanding (s : State) (r : Request) (h : rowRequest s = some r) :
    (rowAction s).outstanding = some r := by
  obtain ⟨dc, rst, hr⟩ := rowAction_of_request s r h
  rw [hr]

/-- A row with a request is a row. -/
theorem hasRow_of_request (s : State) (r : Request) (h : rowRequest s = some r) : hasRow s = true := by
  cases hq : s.seq <;> simp [rowRequest, hasRow, hq] at h ⊢
  obtain ⟨e, he, -⟩ := h
  exact (List.getElem?_eq_some_iff.1 he).1.le

/-! ### Runs -/

@[simp] theorem rowAction_inputs (s : State) : (rowAction s).inputs = s.inputs := by
  unfold rowAction
  repeat' split
  all_goals simp

@[simp] theorem rowAnswered_inputs (b : Bool) (s : State) : (rowAnswered b s).inputs = s.inputs := by
  unfold rowAnswered
  repeat' split
  all_goals simp

@[simp] theorem settle_inputs : ∀ (n : Nat) (s : State), (settle n s).inputs = s.inputs
  | 0, _ => rfl
  | n + 1, s => by
    unfold settle
    split
    · rw [settle_inputs n, rowAction_inputs]
    · rfl

theorem settle_of_outstanding (n : Nat) (s : State) (h : s.outstanding.isSome = true) : settle n s = s := by
  cases n with
  | zero => rfl
  | succ n =>
    have : s.outstanding.isNone = false := by cases ho : s.outstanding <;> simp_all
    simp [settle, this]

theorem settle_of_noRow (n : Nat) (s : State) (h : hasRow s = false) : settle n s = s := by
  cases n <;> simp [settle, h]

theorem settle_succ (n : Nat) (s : State) (ho : s.outstanding = none) (h : hasRow s = true) :
    settle (n + 1) s = settle n (rowAction s) := by
  simp [settle, ho, h]

theorem settle_request (n : Nat) (s : State) (r : Request) (ho : s.outstanding = none) (h : rowRequest s = some r) :
    settle (n + 1) s = rowAction s := by
  rw [settle_succ n s ho (hasRow_of_request s r h), settle_of_outstanding]
  rw [rowAction_outstanding s r h]
  rfl

theorem consume_none (l : List Input) (s : State) (h : s.outstanding = none) : consume l s = s := by
  rcases l with _ | ⟨i, l⟩
  · rfl
  · cases i <;> simp [consume, h]

theorem consume_txDone (b : Bool) (l : List Input) (s : State) (h : s.outstanding.isSome = true) :
    consume (.txDone b :: l) s = consume l (settle 3 (answered b { s with inputs := l })) := by
  simp [consume, h]

/-- A command that has completed runs no further. -/
theorem runSequencer_idle (s : State) (ho : s.outstanding = none) (h : s.seq = .idle) : runSequencer s = s := by
  unfold runSequencer
  rw [settle_of_noRow 3 s (hasRow_idle s h)]
  exact consume_none _ _ ho

/-- A row with a request and no answer: the run stops, waiting. -/
theorem runSequencer_waits (s : State) (r : Request) (ho : s.outstanding = none) (h : rowRequest s = some r)
    (hi : ∀ b l, s.inputs ≠ .txDone b :: l) : runSequencer s = rowAction s := by
  unfold runSequencer
  simp only [settle_request 2 s r ho h, rowAction_inputs]
  rcases hs : s.inputs with _ | ⟨i, l⟩
  · rfl
  · cases i with
    | txDone b => exact absurd hs (hi b l)
    | offer => rfl
    | srcWrite => rfl
    | reset => rfl
    | pass => rfl

/-- A row with a request takes the next answer, and the run goes on after it. -/
theorem runSequencer_answer (s : State) (r : Request) (b : Bool) (l : List Input) (ho : s.outstanding = none)
    (h : rowRequest s = some r) (hi : s.inputs = .txDone b :: l) :
    runSequencer s = runSequencer (answered b { rowAction s with inputs := l }) := by
  unfold runSequencer
  have hs := settle_request 2 s r ho h
  simp only [hs, rowAction_inputs, hi]
  rw [consume_txDone b l _ (by rw [rowAction_outstanding s r h]; rfl)]
  simp [answered]

theorem runSequencer_initZero (s : State) (ho : s.outstanding = none) (h : s.seq = .initZero) :
    runSequencer s = runSequencer (rowAction s) := by
  have h1 : hasRow s = true := by simp [hasRow, h]
  have h2 : rowRequest (rowAction s) = some (.sleep 80) := by
    rw [rowAction_initZero s h]; exact rowRequest_initRstHi _ rfl
  have h3 : (rowAction s).outstanding = none := by rw [rowAction_initZero s h]; simpa using ho
  unfold runSequencer
  rw [settle_succ 2 s ho h1, settle_request 1 _ _ h3 h2, settle_request 2 _ _ h3 h2]

theorem runSequencer_initLines (s : State) (ho : s.outstanding = none) (h : s.seq = .initLines) :
    runSequencer s = runSequencer (rowAction s) := by
  have h1 : hasRow s = true := by simp [hasRow, h]
  have hz : (rowAction s).seq = .initZero := by rw [rowAction_initLines s h]; rfl
  have hzo : (rowAction s).outstanding = none := by rw [rowAction_initLines s h]; simpa using ho
  have hz1 : hasRow (rowAction s) = true := by simp [hasRow, hz]
  have h2 : rowRequest (rowAction (rowAction s)) = some (.sleep 80) := by
    rw [rowAction_initZero _ hz]; exact rowRequest_initRstHi _ rfl
  have h3 : (rowAction (rowAction s)).outstanding = none := by rw [rowAction_initZero _ hz]; simpa using hzo
  unfold runSequencer
  rw [settle_succ 2 s ho h1, settle_succ 1 _ hzo hz1, settle_request 0 _ _ h3 h2, settle_succ 2 _ hzo hz1,
    settle_request 1 _ _ h3 h2]

/-- INIT_CMDS with every entry sent: INIT completes. -/
theorem runSequencer_initCmds_end (s : State) (ho : s.outstanding = none) (h : s.seq = .initCmds)
    (hn : s.initIdx = s.params.initSeq.length) :
    runSequencer s = ok 0x00#8 { s with drv := .ready } := by
  have he : s.params.initSeq[s.initIdx]? = none := by simp [hn]
  have h1 : hasRow s = true := by simp [hasRow, h, hn]
  unfold runSequencer
  rw [settle_succ 2 s ho h1, rowAction_initCmds_end s h he, settle_of_noRow 2 _ (hasRow_idle _ rfl)]
  exact consume_none _ _ ho

/-- REF_DATA with every chunk sent: the run goes on at REF_UNBLANK. -/
theorem runSequencer_refData_end (s : State) (ho : s.outstanding = none) (h : s.seq = .refData)
    (hk : ¬s.chunk.val < 40) : runSequencer s = runSequencer (s.goto .refUnblank) := by
  have h1 : hasRow s = true := by simp [hasRow, h]
  have h2 : rowRequest (s.goto .refUnblank) = some (.transmit [0x29#8] 8 .low) := rowRequest_refUnblank _ rfl
  unfold runSequencer
  rw [settle_succ 2 s ho h1, rowAction_refData_end s h hk, settle_request 1 (s.goto .refUnblank) _ ho h2,
    settle_request 2 (s.goto .refUnblank) _ ho h2]

/-! ### One answered row at a time

`s.tookAnswer r rst b l` is s after the answer b to the request r, recorded with the level `rst`, with l the inputs left. -/

/-- s after the answer b to the request r: nothing outstanding, the answer taken off the inputs and the event recorded. -/
def State.tookAnswer (r : Request) (rst : Pin) (b : Bool) (l : List Input) (s : State) : State :=
  { s with
    outstanding := none
    inputs := l
    trace := s.trace ++ [{ request := r, rst := rst, answer := some (r.answer b) }] }

@[simp] theorem tookAnswer_drv (r : Request) (rst : Pin) (b : Bool) (l : List Input) (s : State) :
    (s.tookAnswer r rst b l).drv = s.drv := rfl
@[simp] theorem tookAnswer_busy (r : Request) (rst : Pin) (b : Bool) (l : List Input) (s : State) :
    (s.tookAnswer r rst b l).busy = s.busy := rfl
@[simp] theorem tookAnswer_cmd (r : Request) (rst : Pin) (b : Bool) (l : List Input) (s : State) :
    (s.tookAnswer r rst b l).cmd = s.cmd := rfl
@[simp] theorem tookAnswer_rspStatus (r : Request) (rst : Pin) (b : Bool) (l : List Input) (s : State) :
    (s.tookAnswer r rst b l).rspStatus = s.rspStatus := rfl
@[simp] theorem tookAnswer_rspData (r : Request) (rst : Pin) (b : Bool) (l : List Input) (s : State) :
    (s.tookAnswer r rst b l).rspData = s.rspData := rfl
@[simp] theorem tookAnswer_fb (r : Request) (rst : Pin) (b : Bool) (l : List Input) (s : State) :
    (s.tookAnswer r rst b l).fb = s.fb := rfl
@[simp] theorem tookAnswer_dirtyMin (r : Request) (rst : Pin) (b : Bool) (l : List Input) (s : State) :
    (s.tookAnswer r rst b l).dirtyMin = s.dirtyMin := rfl
@[simp] theorem tookAnswer_dirtyMax (r : Request) (rst : Pin) (b : Bool) (l : List Input) (s : State) :
    (s.tookAnswer r rst b l).dirtyMax = s.dirtyMax := rfl
@[simp] theorem tookAnswer_dc (r : Request) (rst : Pin) (b : Bool) (l : List Input) (s : State) :
    (s.tookAnswer r rst b l).dc = s.dc := rfl
@[simp] theorem tookAnswer_rst (r : Request) (rst : Pin) (b : Bool) (l : List Input) (s : State) :
    (s.tookAnswer r rst b l).rst = s.rst := rfl
@[simp] theorem tookAnswer_seq (r : Request) (rst : Pin) (b : Bool) (l : List Input) (s : State) :
    (s.tookAnswer r rst b l).seq = s.seq := rfl
@[simp] theorem tookAnswer_initIdx (r : Request) (rst : Pin) (b : Bool) (l : List Input) (s : State) :
    (s.tookAnswer r rst b l).initIdx = s.initIdx := rfl
@[simp] theorem tookAnswer_chunk (r : Request) (rst : Pin) (b : Bool) (l : List Input) (s : State) :
    (s.tookAnswer r rst b l).chunk = s.chunk := rfl
@[simp] theorem tookAnswer_werr (r : Request) (rst : Pin) (b : Bool) (l : List Input) (s : State) :
    (s.tookAnswer r rst b l).werr = s.werr := rfl
@[simp] theorem tookAnswer_offered (r : Request) (rst : Pin) (b : Bool) (l : List Input) (s : State) :
    (s.tookAnswer r rst b l).offered = s.offered := rfl
@[simp] theorem tookAnswer_outstanding (r : Request) (rst : Pin) (b : Bool) (l : List Input) (s : State) :
    (s.tookAnswer r rst b l).outstanding = none := rfl
@[simp] theorem tookAnswer_src (r : Request) (rst : Pin) (b : Bool) (l : List Input) (s : State) :
    (s.tookAnswer r rst b l).src = s.src := rfl
@[simp] theorem tookAnswer_inputs (r : Request) (rst : Pin) (b : Bool) (l : List Input) (s : State) :
    (s.tookAnswer r rst b l).inputs = l := rfl
@[simp] theorem tookAnswer_params (r : Request) (rst : Pin) (b : Bool) (l : List Input) (s : State) :
    (s.tookAnswer r rst b l).params = s.params := rfl
@[simp] theorem tookAnswer_trace (r : Request) (rst : Pin) (b : Bool) (l : List Input) (s : State) :
    (s.tookAnswer r rst b l).trace = s.trace ++ [{ request := r, rst := rst, answer := some (r.answer b) }] := rfl
@[simp] theorem tookAnswer_responses (r : Request) (rst : Pin) (b : Bool) (l : List Input) (s : State) :
    (s.tookAnswer r rst b l).responses = s.responses := rfl

theorem answered_rowAction (s : State) (r : Request) (b : Bool) (l : List Input) (h : rowRequest s = some r) :
    answered b { rowAction s with inputs := l } =
      rowAnswered b { rowAction s with
        outstanding := none, inputs := l,
        trace := s.trace ++ [{ request := r, rst := (rowAction s).rst, answer := some (r.answer b) }] } := by
  obtain ⟨dc, rst, hr⟩ := rowAction_of_request s r h
  unfold answered
  rw [hr]
  rfl

theorem run_initBus_ok (s : State) (l : List Input) (ho : s.outstanding = none) (h : s.seq = .initBus)
    (hi : s.inputs = .txDone true :: l) :
    runSequencer s =
      runSequencer ((s.tookAnswer (.busInit 10000000 0 7) s.rst true l).goto .initLines) := by
  have hr := rowRequest_initBus s h
  rw [runSequencer_answer s _ true l ho hr hi, answered_rowAction s _ true l hr]
  simp only [rowAction_initBus s h]
  rw [rowAnswered_initBus _ _ (by simpa using h), if_pos rfl]
  rfl

theorem run_initBus_fail (s : State) (l : List Input) (ho : s.outstanding = none) (h : s.seq = .initBus)
    (hi : s.inputs = .txDone false :: l) :
    runSequencer s = initFails .errTransportInit (s.tookAnswer (.busInit 10000000 0 7) s.rst false l) := by
  have hr := rowRequest_initBus s h
  rw [runSequencer_answer s _ false l ho hr hi, answered_rowAction s _ false l hr]
  simp only [rowAction_initBus s h]
  rw [rowAnswered_initBus _ _ (by simpa using h), if_neg (by simp), runSequencer_idle _ rfl rfl]
  rfl

/-- INIT_LINES and INIT_ZERO have no request: both are done and the run stands at INIT_RST_HI. -/
theorem run_initLines (s : State) (ho : s.outstanding = none) (h : s.seq = .initLines) :
    runSequencer s = runSequencer ((fbInit ((s.setDc .low).setRst .high)).goto .initRstHi) := by
  rw [runSequencer_initLines s ho h, rowAction_initLines s h, runSequencer_initZero _ (by simpa using ho) rfl,
    rowAction_initZero _ rfl]
  rfl

theorem run_initRstHi (s : State) (b : Bool) (l : List Input) (ho : s.outstanding = none) (h : s.seq = .initRstHi)
    (hi : s.inputs = .txDone b :: l) :
    runSequencer s = runSequencer ((s.tookAnswer (.sleep 80) s.rst b l).goto .initRstLo) := by
  have hr := rowRequest_initRstHi s h
  rw [runSequencer_answer s _ b l ho hr hi, answered_rowAction s _ b l hr]
  simp only [rowAction_initRstHi s h]
  rw [rowAnswered_initRstHi _ _ (by simpa using h)]
  rfl

theorem run_initRstLo (s : State) (b : Bool) (l : List Input) (ho : s.outstanding = none) (h : s.seq = .initRstLo)
    (hi : s.inputs = .txDone b :: l) :
    runSequencer s = runSequencer (((s.tookAnswer (.sleep 80) .low b l).setRst .low).goto .initRstRel) := by
  have hr := rowRequest_initRstLo s h
  rw [runSequencer_answer s _ b l ho hr hi, answered_rowAction s _ b l hr]
  simp only [rowAction_initRstLo s h]
  rw [rowAnswered_initRstLo _ _ (by simpa using h)]
  rfl

theorem run_initRstRel (s : State) (b : Bool) (l : List Input) (ho : s.outstanding = none) (h : s.seq = .initRstRel)
    (hi : s.inputs = .txDone b :: l) :
    runSequencer s =
      runSequencer { ((s.tookAnswer (.sleep 150) .high b l).setRst .high).goto .initCmds with initIdx := 0 } := by
  have hr := rowRequest_initRstRel s h
  rw [runSequencer_answer s _ b l ho hr hi, answered_rowAction s _ b l hr]
  simp only [rowAction_initRstRel s h]
  rw [rowAnswered_initRstRel _ _ (by simpa using h)]
  rfl

theorem run_initCmds_ok (s : State) (e : InitEntry) (l : List Input) (ho : s.outstanding = none) (h : s.seq = .initCmds)
    (he : s.params.initSeq[s.initIdx]? = some e) (hi : s.inputs = .txDone true :: l) :
    runSequencer s =
      runSequencer { (s.tookAnswer (initWrite e) s.rst true l).setDc (dcLevel e.isData) with
        initIdx := s.initIdx + 1 } := by
  have hr := rowRequest_initCmds s e h he
  rw [runSequencer_answer s _ true l ho hr hi, answered_rowAction s _ true l hr]
  simp only [rowAction_initCmds s e h he]
  rw [rowAnswered_initCmds _ _ (by simpa using h), if_pos rfl]
  rfl

theorem run_initCmds_fail (s : State) (e : InitEntry) (l : List Input) (ho : s.outstanding = none)
    (h : s.seq = .initCmds) (he : s.params.initSeq[s.initIdx]? = some e) (hi : s.inputs = .txDone false :: l) :
    runSequencer s =
      initFails .errTransportWrite ((s.tookAnswer (initWrite e) s.rst false l).setDc (dcLevel e.isData)) := by
  have hr := rowRequest_initCmds s e h he
  rw [runSequencer_answer s _ false l ho hr hi, answered_rowAction s _ false l hr]
  simp only [rowAction_initCmds s e h he]
  rw [rowAnswered_initCmds _ _ (by simpa using h), if_neg (by simp), runSequencer_idle _ rfl rfl]
  rfl

theorem run_refBlank (s : State) (b : Bool) (l : List Input) (ho : s.outstanding = none) (h : s.seq = .refBlank)
    (hi : s.inputs = .txDone b :: l) :
    runSequencer s =
      runSequencer ((noteFailure b ((s.tookAnswer (.transmit [0x28#8] 8 .low) s.rst b l).setDc .low)).goto
        .refWindow) := by
  have hr := rowRequest_refBlank s h
  rw [runSequencer_answer s _ b l ho hr hi, answered_rowAction s _ b l hr]
  simp only [rowAction_refBlank s h]
  rw [rowAnswered_refBlank _ _ (by simpa using h)]
  rfl

theorem run_refWindow (s : State) (b : Bool) (l : List Input) (ho : s.outstanding = none) (h : s.seq = .refWindow)
    (hi : s.inputs = .txDone b :: l) :
    runSequencer s =
      runSequencer { (noteFailure b
        ((s.tookAnswer (.transmit s.params.windowBlock.toList 112 .low) s.rst b l).setDc .low)).goto .refData with
        chunk := 0 } := by
  have hr := rowRequest_refWindow s h
  rw [runSequencer_answer s _ b l ho hr hi, answered_rowAction s _ b l hr]
  simp only [rowAction_refWindow s h]
  rw [rowAnswered_refWindow _ _ (by simpa using h)]
  rfl

theorem run_refData (s : State) (b : Bool) (l : List Input) (ho : s.outstanding = none) (h : s.seq = .refData)
    (hk : s.chunk.val < 40) (hi : s.inputs = .txDone b :: l) :
    runSequencer s =
      runSequencer { noteFailure b ((s.tookAnswer (chunkWrite s.fb s.chunk.val) s.rst b l).setDc .high) with
        chunk := ⟨s.chunk.val + 1, by omega⟩ } := by
  have hr := rowRequest_refData s h hk
  rw [runSequencer_answer s _ b l ho hr hi, answered_rowAction s _ b l hr]
  simp only [rowAction_refData s h hk]
  rw [rowAnswered_refData _ _ (by simpa using h)]
  unfold nextChunk
  rw [dif_pos (by simpa using hk)]
  rfl

theorem run_refUnblank (s : State) (b : Bool) (l : List Input) (ho : s.outstanding = none) (h : s.seq = .refUnblank)
    (hi : s.inputs = .txDone b :: l) :
    runSequencer s =
      (noteFailure b ((s.tookAnswer (.transmit [0x29#8] 8 .low) s.rst b l).setDc .low)).responded
        (if s.werr || !b then .errTransportWrite else .ok) 0x00#8 := by
  have hr := rowRequest_refUnblank s h
  rw [runSequencer_answer s _ b l ho hr hi, answered_rowAction s _ b l hr]
  simp only [rowAction_refUnblank s h]
  rw [rowAnswered_refUnblank _ _ (by simpa using h), runSequencer_idle _ rfl rfl]
  rfl

/-! ### What a whole run keeps -/

/-- A property that every row action and every answered row keep, and that taking an input keeps, is kept by a whole run. -/
theorem runSequencer_induction (P : State → Prop) (hact : ∀ s, P s → P (rowAction s))
    (hans : ∀ s b l, P s → P (answered b { s with inputs := l })) (s : State) (h : P s) : P (runSequencer s) := by
  have hset : ∀ n s, P s → P (settle n s) := by
    intro n
    induction n with
    | zero => exact fun s h => h
    | succ n ih =>
      intro s h
      unfold settle
      split
      · exact ih _ (hact s h)
      · exact h
  have hcon : ∀ l s, P s → P (consume l s) := by
    intro l
    induction l with
    | nil => exact fun s h => h
    | cons i l ih =>
      intro s h
      cases i with
      | txDone b =>
        unfold consume
        split
        · exact ih _ (hset 3 _ (hans s b l h))
        · exact h
      | offer => exact h
      | srcWrite => exact h
      | reset => exact h
      | pass => exact h
  exact hcon _ _ (hset 3 s h)

/-- A run keeps CMD, the offered word, SRC and the parameters. -/
theorem runSequencer_keeps (s : State) :
    (runSequencer s).cmd = s.cmd ∧ (runSequencer s).offered = s.offered ∧ (runSequencer s).src = s.src ∧
      (runSequencer s).params = s.params := by
  refine runSequencer_induction
    (fun t => t.cmd = s.cmd ∧ t.offered = s.offered ∧ t.src = s.src ∧ t.params = s.params) ?_ ?_ s
    ⟨rfl, rfl, rfl, rfl⟩
  · intro t h
    unfold rowAction
    repeat' split
    all_goals simpa using h
  · intro t b l h
    unfold answered rowAnswered
    repeat' split
    all_goals simpa using h

/-- What REFRESH's rows keep: FB, DIRTY and DRV_STATE are written by rows of INIT only. -/
theorem rowAction_fb_of_refresh (s : State) (h : s.seq.isRefresh = true) :
    (rowAction s).fb = s.fb ∧ (rowAction s).drv = s.drv ∧ (rowAction s).dirtyMin = s.dirtyMin ∧
      (rowAction s).dirtyMax = s.dirtyMax ∧ (rowAction s).rst = s.rst := by
  cases hq : s.seq <;> simp [hq, Seq.isRefresh] at h
  case refData =>
    by_cases hk : s.chunk.val < 40
    · simp [rowAction_refData s hq hk]
    · simp [rowAction_refData_end s hq hk]
  case refBlank => simp [rowAction_refBlank s hq]
  case refWindow => simp [rowAction_refWindow s hq]
  case refUnblank => simp [rowAction_refUnblank s hq]

end Sys2Proof.Machine
end

