-- ==== Sys2Proof/Laws/Ports.lean ====
section
/-! SUPPORT. Laws/Ports.lean: what one step does in each situation, one lemma each, and that a run of the sequencer does not
depend on the inputs it has not reached. -/

namespace Sys2Proof.Machine

/-! ### One step -/

theorem step_idle (s : State) (h : s.busy = false) : step s = idleStep s := by simp [step, h]

theorem step_busy (s : State) (h : s.busy = true) : step s = busyStep s := by simp [step, h]

/-- An offered word that decodes to a command is accepted, and the command runs. -/
theorem step_accept (s : State) (w : Word) (i : Instr) (hb : s.busy = false) (ho : s.offered = some w)
    (hr : s.inputs.head? ≠ some .reset) (hd : decode w = .command i) :
    step s = exec i (s.accept w (firstSeq (.command i))) := by
  rw [step_idle s hb]
  simp only [idleStep, ho]
  rw [acceptStep_of_not_reset w s hr]
  simp [runCommand, acceptWord, hd]

/-- With BUSY = 0 and nothing offered, the next move of the outside world happens. -/
theorem step_idle_input (s : State) (i : Input) (l : List Input) (hb : s.busy = false) (ho : s.offered = none)
    (hi : s.inputs = i :: l) : step s = .next (idleInput i { s with inputs := l }) := by
  rw [step_idle s hb]
  simp [idleStep, ho, hi]

theorem step_idle_nothing (s : State) (hb : s.busy = false) (ho : s.offered = none) (hi : s.inputs = []) :
    step s = .next s := by
  rw [step_idle s hb]
  simp [idleStep, ho, hi]

/-- A reset that is the next move comes before everything else; a word on the port of an idle block is taken and aborted. -/
theorem step_reset (s : State) (l : List Input) (hi : s.inputs = .reset :: l) :
    step s = .next (blockReset { s with offered := if s.busy then s.offered else none, inputs := l }) := by
  cases hb : s.busy with
  | true =>
    rw [step_busy s hb]
    unfold busyStep resumeStep waitingStep
    rw [hi]
    simp [hb]
  | false =>
    rw [step_idle s hb]
    cases ho : s.offered with
    | none => simp [idleStep, ho, hi, idleInput, hb]
    | some w =>
      cases hq : s.outstanding <;> simp [idleStep, ho, acceptStep, hi, blockReset, acceptWord, State.accept, State.record, hq]

/-- While the request of the current row is outstanding, the block waits for the next move of the outside world. -/
theorem step_waiting (s : State) (r : Request) (hb : s.busy = true) (ho : s.outstanding = some r)
    (hr : (rowRequest s).isSome = true) : step s = waitingStep s := by
  rw [step_busy s hb]
  simp [busyStep, ho, hr]

@[simp] theorem answered_inputs (b : Bool) (s : State) : (answered b s).inputs = s.inputs := by
  unfold answered
  rw [rowAnswered_inputs, record_inputs]

/-- A run that stands at a request with its answer at hand goes on as a run after that answer. -/
theorem consume_eq_runSequencer (b : Bool) (l : List Input) (s : State) (h : s.outstanding.isSome = true) :
    consume (.txDone b :: l) s = runSequencer (answered b { s with inputs := l }) := by
  rw [consume_txDone b l s h]
  simp only [runSequencer, settle_inputs, answered_inputs]

/-- The answer to an outstanding request is recorded, and the row's answer column happens. -/
theorem answered_of_outstanding (s : State) (r : Request) (b : Bool) (ho : s.outstanding = some r) :
    answered b s =
      rowAnswered b { s with
        outstanding := none, trace := s.trace ++ [{ request := r, rst := s.rst, answer := some (r.answer b) }] } := by
  simp [answered, State.record, ho]

/-- A waiting command whose answer comes goes on as a run after that answer. -/
theorem step_answer (s : State) (r : Request) (b : Bool) (l : List Input) (hb : s.busy = true) (ho : s.outstanding = some r)
    (hr : (rowRequest s).isSome = true) (hi : s.inputs = .txDone b :: l) :
    step s = .next (runSequencer (rowAnswered b { s with
      outstanding := none, inputs := l,
      trace := s.trace ++ [{ request := r, rst := s.rst, answer := some (r.answer b) }] })) := by
  rw [step_waiting s r hb ho hr]
  unfold waitingStep
  rw [hi]
  simp only
  rw [consume_eq_runSequencer b l s (by simp [ho]), answered_of_outstanding { s with inputs := l } r b ho]

/-! ### What a run establishes -/

/-- If settling takes P to Q and every answer in a state of Q gives P again, a run from P ends in Q. -/
theorem runSequencer_settled (P Q : State → Prop) (hset : ∀ s, P s → Q (settle 3 s))
    (hans : ∀ s b l, Q s → s.outstanding.isSome = true → P (answered b { s with inputs := l })) (s : State) (h : P s) :
    Q (runSequencer s) := by
  have hcon : ∀ l s, Q s → Q (consume l s) := by
    intro l
    induction l with
    | nil => exact fun s h => h
    | cons i l ih =>
      intro s h
      cases i with
      | txDone b =>
        by_cases ho : s.outstanding.isSome = true
        · rw [consume_txDone b l s ho]
          exact ih _ (hset _ (hans s b l h ho))
        · simpa [consume, ho] using h
      | offer => exact h
      | srcWrite => exact h
      | reset => exact h
      | pass => exact h
  exact hcon _ _ (hset s h)

/-! ### The inputs a run has not reached do not matter -/

theorem rowAction_withInputs (s : State) (l : List Input) :
    rowAction { s with inputs := l } = { rowAction s with inputs := l } := by
  obtain ⟨drv, busy, cmd, rspStatus, rspData, fb, dirtyMin, dirtyMax, dc, rst, seq, initIdx, chunk, werr, offered, outstanding,
    src, inputs, params, trace, responses⟩ := s
  cases seq <;> try rfl
  · cases h : params.initSeq[initIdx]? <;> simp only [rowAction, h] <;> rfl
  · by_cases hk : chunk.val < Config.nChunks <;> simp only [rowAction, if_pos, hk, if_false] <;> rfl

theorem rowAnswered_withInputs (b : Bool) (s : State) (l : List Input) :
    rowAnswered b { s with inputs := l } = { rowAnswered b s with inputs := l } := by
  obtain ⟨drv, busy, cmd, rspStatus, rspData, fb, dirtyMin, dirtyMax, dc, rst, seq, initIdx, chunk, werr, offered, outstanding,
    src, inputs, params, trace, responses⟩ := s
  cases seq <;> try rfl
  · cases b <;> rfl
  · cases b <;> rfl
  · by_cases hk : chunk.val < 40 <;> simp [rowAnswered, nextChunk, noteFailure, hk]

theorem answered_withInputs (b : Bool) (s : State) (l : List Input) :
    answered b { s with inputs := l } = { answered b s with inputs := l } := by
  unfold answered
  rw [← rowAnswered_withInputs]
  congr 1
  cases h : s.outstanding <;> simp [State.record, h]

theorem settle_withInputs (l : List Input) :
    ∀ (n : Nat) (s : State), settle n { s with inputs := l } = { settle n s with inputs := l }
  | 0, _ => rfl
  | n + 1, s => by
    unfold settle
    by_cases h : s.outstanding.isNone && hasRow s
    · rw [if_pos h, if_pos (by exact h), rowAction_withInputs, settle_withInputs l n]
    · rw [if_neg h, if_neg (by exact h)]

end Sys2Proof.Machine
end

