-- ==== Sys2Proof/Tests/Slice0.lean ====
section
/-! SUPPORT. Tests/Slice0.lean: expected values from 95_test_vectors.md, one step each; and a witness for every statement with
hypotheses. A vector's name (V-E1, V-F4, ...) stands in the test's comment. -/

namespace Sys2Proof.Tests
open Sys2Proof Sys2Proof.Machine

/-! ### Helpers -/

/-- Parameters with two INIT_SEQ entries (the invented values of V-S2) and a window block of fourteen different bytes. -/
def params : Params :=
  { windowBlock := #v[0#8, 1#8, 2#8, 3#8, 4#8, 5#8, 6#8, 7#8, 8#8, 9#8, 10#8, 11#8, 12#8, 13#8]
    initSeq := [⟨0x11#8, false⟩, ⟨0x3A#8, true⟩]
    loadMap := .default }

/-- After reset, with these parameters and these coming inputs. -/
def uninit (inputs : List Input) : State := { State.reset with params := params, inputs := inputs }

/-- READY after an INIT, with this FB and these coming inputs. -/
def ready (fb : Memory) (inputs : List Input) : State :=
  { uninit inputs with drv := .ready, fb := fb, dc := .high, rst := .high }

/-- FAILED after an INIT whose BUSINIT failed. -/
def failed : State := { uninit [] with drv := .failed, rspStatus := .errTransportInit }

/-- The word offered to the block. -/
def offering (w : Word) (s : State) : State := { s with offered := some w }

/-- The step answers a next state of which p holds. -/
def stepsTo (s : State) (p : State → Bool) : Bool :=
  match step s with
  | .next t => p t
  | .fault _ => false
  | .refused _ => false

/-- INIT waits on its BUSINIT. -/
def atInitBus (inputs : List Input) : State :=
  { uninit inputs with
    drv := .initializing, busy := true, cmd := 0x10000000#32, seq := .initBus, outstanding := some (.busInit 10000000 0 7) }

/-- INIT after its zero-fill, waiting at a row with this request. -/
def inPulse (q : Seq) (rst : Pin) (r : Request) (inputs : List Input) : State :=
  { atInitBus inputs with dc := .low, rst := rst, seq := q, outstanding := some r }

/-- REFRESH 0 waits on a row's request. -/
def refreshing (q : Seq) (chunk : Fin 41) (dc : Pin) (r : Request) (inputs : List Input) : State :=
  { ready [] inputs with
    busy := true, cmd := 0x60000000#32, seq := q, chunk := chunk, dc := dc, outstanding := some r }

/-! ### WellFormed: one ill-formed term for each check -/

theorem test_wf_clear_rs : ¬(Instr.clear 256 0).WellFormed := by decide
theorem test_wf_clear_re : ¬(Instr.clear 0 256).WellFormed := by decide
theorem test_wf_setPixel_x : ¬(Instr.setPixel 256 0 0x00#8).WellFormed := by decide
theorem test_wf_setPixel_y : ¬(Instr.setPixel 0 256 0x00#8).WellFormed := by decide
theorem test_wf_loadImage_len : ¬(Instr.loadImage 65536).WellFormed := by decide
theorem test_wf_readByte_addr : ¬(Instr.readByte 32768).WellFormed := by decide
theorem test_wf_getPixel_x : ¬(Instr.getPixel 256 0).WellFormed := by decide
theorem test_wf_getPixel_y : ¬(Instr.getPixel 0 256).WellFormed := by decide

/-! ### Decode: words of 95_test_vectors.md section 2.1 -/

/-- V-E1 and V-E14. -/
theorem test_decode_init : decode 0x10000000#32 = .command .init ∧ decode 0x10000001#32 = .illegal .reservedField := by decide
/-- V-E2 and V-E15. -/
theorem test_decode_clear :
    decode 0x200A0000#32 = .command (.clear 0 160) ∧ decode 0x20000001#32 = .illegal .reservedField := by decide
/-- V-E4; 0x38000000 has reserved bit 27 set. -/
theorem test_decode_blank : decode 0x30000000#32 = .command .blank ∧ decode 0x38000000#32 = .illegal .reservedField := by decide
/-- V-E5, V-E22 and V-E16. -/
theorem test_decode_setPixel :
    decode 0x4010001C#32 = .command (.setPixel 1 0 0x1C#8) ∧ decode 0x4F000004#32 = .command (.setPixel 240 0 0x04#8) ∧
      decode 0x40000100#32 = .illegal .reservedField := by decide
/-- V-E7 and V-E17. -/
theorem test_decode_loadImage :
    decode 0x50002580#32 = .command (.loadImage 9600) ∧ decode 0x50010000#32 = .illegal .reservedField := by decide
/-- V-E8 and V-E18. -/
theorem test_decode_refresh :
    decode 0x60000000#32 = .command (.refresh false) ∧ decode 0x60000001#32 = .command (.refresh true) ∧
      decode 0x60000002#32 = .illegal .reservedField := by decide
/-- V-E9; 0x70000001 has reserved bit 0 set. -/
theorem test_decode_halt : decode 0x70000000#32 = .command .halt ∧ decode 0x70000001#32 = .illegal .reservedField := by decide
/-- V-E10, V-E21 and V-E19. -/
theorem test_decode_readByte :
    decode 0x80004FFF#32 = .command (.readByte 20479) ∧ decode 0x80007FFF#32 = .command (.readByte 32767) ∧
      decode 0x80008000#32 = .illegal .reservedField := by decide
/-- V-E11 and V-E20. -/
theorem test_decode_getPixel :
    decode 0x9EF9F000#32 = .command (.getPixel 239 159) ∧ decode 0x90000001#32 = .illegal .reservedField := by decide
/-- V-E12 and V-E13. -/
theorem test_decode_reserved_opcode :
    decode 0x00000000#32 = .illegal .reservedOpcode ∧ decode 0xA0000000#32 = .illegal .reservedOpcode ∧
      decode 0xF0000000#32 = .illegal .reservedOpcode ∧ decode 0xFFFFFFFF#32 = .illegal .reservedOpcode := by decide

/-! ### Commands -/

/-- V-S2: the whole INIT, its trace and its end. -/
theorem test_init_succeeds :
    stepsTo (offering 0x10000000#32 (uninit (answers [true, true, true, true, true, true]))) (fun t =>
      statusWord t == 0x00000004#32 && t.dc == .high && t.rst == .high && dirtyWord t == 0xFFFFFFFF#32 &&
      t.trace ==
        [ ⟨.busInit 10000000 0 7, .z, some .ok⟩, ⟨.sleep 80, .high, some .done⟩, ⟨.sleep 80, .low, some .done⟩,
          ⟨.sleep 150, .high, some .done⟩, ⟨.transmit [0x11#8] 8 .low, .high, some .ok⟩,
          ⟨.transmit [0x3A#8] 8 .high, .high, some .ok⟩ ]) = true := by decide
/-- V-S3: BUSINIT fails. -/
theorem test_init_bus_failure :
    stepsTo (offering 0x10000000#32 (uninit (answers [false]))) (fun t =>
      statusWord t == 0x00000016#32 && t.dc == .z && t.rst == .z && t.trace.length == 1) = true := by decide

/-- V-F1, on the bytes next to the borders: rows 1 and 2 of an FB of 0xFF are cleared. -/
theorem test_clear_rows :
    stepsTo (offering 0x20103000#32 (ready [(127, 0xFF#8), (128, 0xFF#8), (383, 0xFF#8), (384, 0xFF#8)] [])) (fun t =>
      t.fb == [(127, 0xFF#8), (384, 0xFF#8)] && statusWord t == 0x00000004#32) = true := by decide
/-- V-X10: CLEAR 5, 4. -/
theorem test_clear_bounds :
    stepsTo (offering 0x20504000#32 (ready [(700, 0xFF#8)] [])) (fun t =>
      t.fb == [(700, 0xFF#8)] && t.rspStatus == .errBounds) = true := by decide

/-- V-F2: padding and pixel bytes alike. -/
theorem test_blank :
    stepsTo (offering 0x30000000#32 (ready [(0, 0xFF#8), (8, 0x5C#8), (20479, 0xE0#8)] [])) (fun t =>
      t.fb == [] && statusWord t == 0x00000004#32) = true := by decide

/-- V-F12: the odd field of a converted byte. -/
theorem test_setPixel_odd :
    stepsTo (offering 0x4010001C#32 (ready [(8, 0xB7#8)] [])) (fun t => t.fb == [(8, 0xF7#8)]) = true := by decide
/-- V-X4 and V-X7: bounds before level, and an illegal pattern. -/
theorem test_setPixel_errors :
    stepsTo (offering 0x4F000004#32 (ready [] [])) (fun t => t.rspStatus == .errBounds && t.fb == []) = true ∧
      stepsTo (offering 0x40000004#32 (ready [] [])) (fun t => t.rspStatus == .errLevel && t.fb == []) = true := by decide

/-- V-C13 in place: source byte 0 is 0x27; the padding is 0xFF and DIRTY is (0, 159). -/
theorem test_loadImage_converts :
    stepsTo (offering 0x50002580#32 { ready [] [] with src := [(0, 0x27#8)] }) (fun t =>
      t.fb.read 7 == 0xFF#8 && t.fb.read 8 == 0xEF#8 && t.fb.read 9 == 0xA3#8 && dirtyWord t == 0x009F0000#32) = true := by
  decide
/-- V-X12: one byte too short. -/
theorem test_loadImage_length :
    stepsTo (offering 0x5000257F#32 (ready [] [])) (fun t =>
      t.rspStatus == .errLength && dirtyWord t == 0xFFFFFFFF#32) = true := by decide

/-- V-S7: REFRESH 1 is 42 requests. -/
theorem test_refresh_requests :
    stepsTo (offering 0x60000001#32 (ready [] (answers (List.replicate 42 true)))) (fun t =>
      t.trace.length == 42 && statusWord t == 0x00000004#32 && t.dc == .low) = true := by decide
/-- V-S8: chunk 3 fails, and all 43 requests are issued. -/
theorem test_refresh_failure :
    stepsTo (offering 0x60000000#32 (ready [] (answers ([true, true, true, true, true, false] ++ List.replicate 37 true))))
      (fun t => t.trace.length == 43 && statusWord t == 0x00000024#32) = true := by decide

/-- V-S12: HALT in FAILED. -/
theorem test_halt : stepsTo (offering 0x70000000#32 failed) (fun t => statusWord t == 0x00000006#32) = true := by decide

/-- V-F15. -/
theorem test_readByte :
    stepsTo (offering 0x80000008#32 (ready [(8, 0x5C#8)] [])) (fun t => statusWord t == 0x00005C04#32) = true := by decide
/-- V-X15: one past the end. -/
theorem test_readByte_bounds :
    stepsTo (offering 0x80005000#32 (ready [] [])) (fun t => t.rspStatus == .errBounds) = true := by decide

/-- V-F17. -/
theorem test_getPixel :
    stepsTo (offering 0x90100000#32 (ready [(8, 0x5F#8)] [])) (fun t =>
      t.rspStatus == .ok && t.rspData == 0x08#8) = true := by decide
/-- V-F19: a field that is no legal pattern. -/
theorem test_getPixel_raw :
    stepsTo (offering 0x90000000#32 (ready [(8, 0xB7#8)] [])) (fun t =>
      t.rspStatus == .ok && t.rspData == 0x14#8) = true := by decide

/-- V-X2 and V-X5: decode before state, state before bounds. -/
theorem test_check_order :
    stepsTo (offering 0x10000001#32 (uninit [])) (fun t => t.rspStatus == .errOpcode && t.drv == .uninit) = true ∧
      stepsTo (offering 0x4F000004#32 (uninit [])) (fun t => t.rspStatus == .errState) = true := by decide

/-- V-C5 to V-C12: the conversion under the default map. -/
theorem test_conv :
    conv .default 0x1B#8 = (0xF7#8, 0x63#8) ∧ conv .default 0xE4#8 = (0x0F#8, 0xBF#8) ∧
    conv .default 0x01#8 = (0xFF#8, 0xF7#8) ∧ conv .default 0x04#8 = (0xFF#8, 0xBF#8) ∧
    conv .default 0x10#8 = (0xF7#8, 0xFF#8) ∧ conv .default 0x40#8 = (0xBF#8, 0xFF#8) ∧
    conv .default 0x0F#8 = (0xFF#8, 0x03#8) ∧ conv .default 0xF0#8 = (0x03#8, 0xFF#8) := by decide

/-- V-R3: a reset while chunk 10 is outstanding gives no response; its late answer is ignored, also while the next command waits. -/
theorem test_reset_during_refresh :
    stepsTo (refreshing .refData 10 .high (chunkWrite [] 10) [.reset, .txDone true]) (fun t =>
      statusWord t == 0x00000000#32 && t.responses == [] && t.outstanding == none &&
      stepsTo t (fun u => statusWord u == 0x00000000#32 && u.inputs == [] && u.trace.length == 1)) = true ∧
      stepsTo (atInitBus [.pass, .txDone true]) (fun t => t.seq == .initBus && t.inputs == [.txDone true]) = true := by decide

/-- 60_exceptions.md R206: a reset aborts an accepted one-step command without a response, and the word is gone from the port. -/
theorem test_reset_aborts_accepted_command :
    stepsTo (offering 0x30000000#32 (ready [(8, 0xFF#8)] [.reset])) (fun t =>
      t.responses == [] && t.offered == none && statusWord t == 0x00000000#32 && t.inputs == []) = true := by decide

/-- The Host can write SRC while the block is idle, and only then (R234); a word offered is taken one step later. -/
theorem test_idle_inputs :
    stepsTo (ready [] [.srcWrite 9#16 0x5A#8]) (fun t => t.src == [(9, 0x5A#8)]) = true ∧
      stepsTo (ready [] [.offer 0x70000000#32]) (fun t => t.offered == some 0x70000000#32 && !t.busy) = true ∧
      step (atInitBus [.srcWrite 9#16 0x5A#8]) = .refused (.srcWriteWhileBusy 9#16) := ⟨by decide, by decide, rfl⟩

/-- 30_encoding.md R78: a comment, a hexadecimal operand, and an operand that does not fit. -/
theorem test_assemble :
    assembleLine "SET_PIXEL 1, 0, 0x1C ; odd".toList = .word 0x4010001C#32 ∧
      assembleLine "CLEAR 0, 160".toList = .word 0x200A0000#32 ∧ assembleLine "CLEAR 0, 256".toList = .rejected := by decide

/-! ### Witnesses: for every statement with hypotheses, a state and operands that meet them all -/

theorem witness_DecodeOfEncodeIsTheCommand : (Instr.setPixel 255 255 0xFF#8).WellFormed := by decide
theorem witness_EncodeOfDecodeIsTheWord : decode 0x80007FFF#32 = .command (.readByte 32767) := by decide
/-- Both ends of each clause: opcodes 0, 10 and 15. -/
theorem witness_ReservedOpcodesCompleteWithErrOpcode :
    bits 0x0FFFFFFF#32 31 28 = 0 ∧ 10 ≤ bits 0xA0000000#32 31 28 ∧ 10 ≤ bits 0xFFFFFFFF#32 31 28 ∧
      (offering 0xA0000000#32 (ready [] [])).busy = false ∧
      (offering 0xA0000000#32 (ready [] [])).offered = some 0xA0000000#32 ∧
      (offering 0xA0000000#32 (ready [] [])).inputs.head? ≠ some .reset := by decide
/-- Opcodes 1 and 9, highest and lowest reserved bit. -/
theorem witness_ReservedFieldsCompleteWithErrOpcode :
    (1 ≤ bits 0x18000000#32 31 28 ∧ bits 0x18000000#32 31 28 ≤ 9 ∧
      0x18000000#32 &&& reservedBits (bits 0x18000000#32 31 28) ≠ 0#32) ∧
    (1 ≤ bits 0x90000001#32 31 28 ∧ bits 0x90000001#32 31 28 ≤ 9 ∧
      0x90000001#32 &&& reservedBits (bits 0x90000001#32 31 28) ≠ 0#32) ∧
    (offering 0x18000000#32 (ready [] [])).busy = false ∧
    (offering 0x18000000#32 (ready [] [])).offered = some 0x18000000#32 ∧
    (offering 0x18000000#32 (ready [] [])).inputs.head? ≠ some .reset := by decide
theorem witness_StepRunsTheOfferedCommand :
    (offering 0x30000000#32 (ready [] [])).busy = false ∧
      (offering 0x30000000#32 (ready [] [])).offered = some 0x30000000#32 ∧
      (offering 0x30000000#32 (ready [] [])).inputs.head? ≠ some .reset ∧ decode 0x30000000#32 = .command .blank := by decide
theorem witness_FetchWordIsRunByTheNextStep : (Instr.clear 255 255).WellFormed := by decide
theorem witness_IdleBlockTakesOutsideMoves :
    (∀ l ∈ [[], [.offer 0x70000000#32], [.txDone true], [.pass], [.srcWrite 0xFFFF#16 0x00#8]],
      (ready [] l).busy = false ∧ (ready [] l).offered = none ∧ (ready [] l).inputs = l) ∧
      (ready [] []).src.wf := by decide
/-- A waiting block, an idle one, and one about to take a word. -/
theorem witness_BlockResetTakesTheResetValues :
    (atInitBus [.reset]).inputs = .reset :: [] ∧ (ready [] [.reset]).inputs = .reset :: [] ∧
      (offering 0x30000000#32 (ready [] [.reset])).inputs = .reset :: [] := by decide
theorem witness_WaitingBlockTakesNoCommand :
    ∀ l ∈ [[], [.pass], [.offer 0x70000000#32], [.srcWrite 0xFFFF#16 0x01#8]],
      (atInitBus l).busy = true ∧ (atInitBus l).outstanding = some (.busInit 10000000 0 7) ∧
        rowRequest (atInitBus l) = some (.busInit 10000000 0 7) ∧ (atInitBus l).inputs = l := by decide
/-- With and without coming moves; the stuck state with a word still to be offered, and with an answer that comes after a reset only. -/
theorem witness_FinishedAndStuckStatesStay :
    (ready [] []).Finished ∧ (ready [] []).inputs = [] ∧ (ready [] [.txDone true]).Finished ∧
      (atInitBus []).Stuck ∧ (rowRequest (atInitBus [])).isSome = true ∧ (atInitBus []).inputs = [] ∧
      (atInitBus [.offer 0x70000000#32, .reset, .txDone true]).Stuck ∧
      (rowRequest (atInitBus [.offer 0x70000000#32, .reset, .txDone true])).isSome = true ∧
      (atInitBus [.offer 0x70000000#32, .reset, .txDone true]).inputs.head? ≠ some .reset ∧
      ∀ a v rest, (atInitBus [.offer 0x70000000#32, .reset, .txDone true]).inputs ≠ .srcWrite a v :: rest :=
  ⟨⟨rfl, rfl, rfl, rfl⟩, rfl, ⟨rfl, rfl, rfl, rfl⟩, ⟨rfl, rfl, by decide⟩, rfl, rfl, ⟨rfl, rfl, by decide⟩, rfl, by decide,
    fun _ _ _ => nofun⟩
theorem witness_NotReadyCommandsAreRejected :
    Instr.clear 0 160 ≠ .init ∧ Instr.clear 0 160 ≠ .halt ∧ (uninit []).drv ≠ .ready ∧ failed.drv ≠ .ready := by decide
/-- Each clause at the ends of its range: widths, states, rs = re, rs = 0, re = 160, re = 161 and rs = re + 1. -/
theorem witness_ClearZeroesExactlyItsRows :
    ((255 < 256) ∧ (0 < 256)) ∧ (uninit []).drv ≠ .ready ∧ (ready [] []).drv = .ready ∧
      ¬(5 ≤ 4 ∧ 4 ≤ 160) ∧ ¬(0 ≤ 161 ∧ 161 ≤ 160) ∧ (0 ≤ 160 ∧ 160 ≤ 160) ∧ (160 ≤ 160 ∧ 160 ≤ 160) := by decide
theorem witness_BlankZeroesTheFrame : (uninit []).drv ≠ .ready ∧ (ready [(0, 0xFF#8)] []).drv = .ready := by decide
/-- Each clause at the ends of its range: the corners of the panel, the first coordinates outside, and a pattern of each kind. -/
theorem witness_SetPixelWritesOneField :
    (uninit []).drv ≠ .ready ∧ (ready [(8, 0xB7#8)] []).drv = .ready ∧ (ready [(8, 0xB7#8)] []).fb.wf ∧
      (240 ≤ 240 ∨ 160 ≤ 0) ∧ (240 ≤ 0 ∨ 160 ≤ 160) ∧ 239 < 240 ∧ 159 < 160 ∧
      0x1C#8 ∈ [0x00#8, 0x08#8, 0x10#8, 0x1C#8] ∧ 0x00#8 ∈ [0x00#8, 0x08#8, 0x10#8, 0x1C#8] ∧
      0xE0#8 ∉ [0x00#8, 0x08#8, 0x10#8, 0x1C#8] := by decide
theorem witness_SetPixelKeepsEveryOtherBit :
    (ready [(20479, 0x40#8)] []).drv = .ready ∧ 239 < 240 ∧ 159 < 160 ∧ 0x1C#8 ∈ [0x00#8, 0x08#8, 0x10#8, 0x1C#8] ∧
      (ready [(20479, 0x40#8)] []).fb.wf := by decide
theorem witness_SetPixelThenGetPixelReadsBack :
    (ready [] []).drv = .ready ∧ 0 < 240 ∧ 0 < 160 ∧ 0x08#8 ∈ [0x00#8, 0x08#8, 0x10#8, 0x1C#8] ∧ (ready [] []).fb.wf := by decide
theorem witness_ReadByteReturnsTheByte :
    32767 < 32768 ∧ (uninit []).drv ≠ .ready ∧ (ready [(8, 0x5C#8)] []).drv = .ready ∧ 20480 ≤ 20480 ∧ 20479 < 20480 := by decide
theorem witness_GetPixelReturnsTheField :
    255 < 256 ∧ (uninit []).drv ≠ .ready ∧ (ready [(8, 0x5C#8)] []).drv = .ready ∧ (240 ≤ 240 ∨ 160 ≤ 0) ∧
      (240 ≤ 239 ∨ 160 ≤ 160) ∧ 239 < 240 ∧ 159 < 160 := by decide
theorem witness_LoadImageConvertsTheFrame :
    65535 < 65536 ∧ (uninit []).drv ≠ .ready ∧ (ready [] []).drv = .ready ∧ 9599 ≠ 9600 ∧ 9601 ≠ 9600 ∧ 159 < 160 ∧ 59 < 60 := by
  decide
theorem witness_LoadImageOutputShape : (ready [] []).drv = .ready := by decide
theorem witness_ZeroImageFillsTheFrameWithFF :
    (ready [] []).drv = .ready ∧ ∀ a, a < 9600 → (ready [] []).src.read a = 0x00#8 := ⟨rfl, fun _ _ => rfl⟩
theorem witness_PixelsHaveTheirOwnFields : inPanel 0 0 = true ∧ inPanel 239 159 = true := by decide
theorem witness_ClearIsTheLoopOfByteWrites :
    (ready [(128, 0xFF#8)] []).drv = .ready ∧ 1 ≤ 3 ∧ 3 ≤ 160 ∧ (ready [(128, 0xFF#8)] []).fb.wf := by decide
theorem witness_LoadImageIsTheLoopOfByteWrites : (ready [] []).drv = .ready ∧ (ready [] []).MemoryOk :=
  ⟨rfl, ⟨by decide, by decide, by decide, by decide⟩⟩
theorem witness_InitSucceeds :
    (uninit (answers [true, false, true, true, true, true])).drv = .uninit ∧
      (uninit (answers [true, false, true, true, true, true])).outstanding = none ∧
      (uninit (answers [true, false, true, true, true, true])).inputs =
        answers ([true, false, true, true] ++ List.replicate params.initSeq.length true) ++ [] := by decide
theorem witness_InitBusFailureFails :
    (uninit [.txDone false]).drv = .uninit ∧ (uninit [.txDone false]).outstanding = none ∧
      (uninit [.txDone false]).inputs = .txDone false :: [] := by decide
/-- The first and the last entry. -/
theorem witness_InitWriteFailureFails :
    ∀ k ∈ [0, 1],
      (uninit (answers ([true, true, true, true] ++ List.replicate k true ++ [false]))).drv = .uninit ∧
        k < params.initSeq.length ∧
        (uninit (answers ([true, true, true, true] ++ List.replicate k true ++ [false]))).outstanding = none ∧
        (uninit (answers ([true, true, true, true] ++ List.replicate k true ++ [false]))).inputs =
          answers ([true, true, true, true] ++ List.replicate k true ++ [false]) ++ [] := by decide
theorem witness_InitOutsideUninitIsRejected : (ready [] []).drv ≠ .uninit ∧ failed.drv ≠ .uninit := by decide

/-- The states of the rows of INIT's table, each waiting, with one answer to come, the last entry and an empty INIT_SEQ among them. -/
def initRowStates (ok : Bool) : List State :=
  [ atInitBus [.txDone ok],
    inPulse .initRstHi .high (.sleep 80) [.txDone ok],
    inPulse .initRstLo .low (.sleep 80) [.txDone ok],
    inPulse .initRstRel .high (.sleep 150) [.txDone ok],
    inPulse .initCmds .high (.transmit [0x11#8] 8 .low) [.txDone ok],
    { inPulse .initCmds .high (.transmit [0x3A#8] 8 .high) [.txDone ok] with initIdx := 1 },
    { inPulse .initRstRel .high (.sleep 150) [.txDone ok] with params := { params with initSeq := [] } } ]

/-- Every row with either answer: a next entry, the last entry (index 1) and no entry at all. -/
theorem witness_InitRowsInOrder :
    (∀ ok, ∀ s ∈ initRowStates ok, s.busy = true ∧ s.outstanding = rowRequest s ∧ s.inputs = .txDone ok :: []) ∧
      (initRowStates true).map (·.seq) =
        [.initBus, .initRstHi, .initRstLo, .initRstRel, .initCmds, .initCmds, .initRstRel] ∧
      (initRowStates true).map (fun s => (s.params.initSeq[s.initIdx]?, s.params.initSeq[s.initIdx + 1]?)) =
        [ (some ⟨0x11#8, false⟩, some ⟨0x3A#8, true⟩), (some ⟨0x11#8, false⟩, some ⟨0x3A#8, true⟩),
          (some ⟨0x11#8, false⟩, some ⟨0x3A#8, true⟩), (some ⟨0x11#8, false⟩, some ⟨0x3A#8, true⟩),
          (some ⟨0x11#8, false⟩, some ⟨0x3A#8, true⟩), (some ⟨0x3A#8, true⟩, none), (none, none) ] ∧
      ∀ ok' rest', ([] : List Input) ≠ .txDone ok' :: rest' :=
  ⟨by decide, by decide, by decide, fun _ _ => nofun⟩
/-- Both forms, with the last answer a failure. -/
theorem witness_RefreshSendsTheWholeFrame :
    (ready [] (answers (List.replicate 42 true ++ [false]))).drv = .ready ∧
      (ready [] (answers (List.replicate 42 true ++ [false]))).outstanding = none ∧
      (List.replicate 42 true ++ [false]).length = (if false then 42 else 43) ∧
      (List.replicate 41 true ++ [false]).length = (if true then 42 else 43) ∧
      (ready [] (answers (List.replicate 42 true ++ [false]))).inputs =
        answers (List.replicate 42 true ++ [false]) ++ [] := by decide

/-- The states of the rows of REFRESH's table, each waiting, with one answer to come; chunks 0, 38 and 39. -/
def refreshRowStates : List State :=
  [ refreshing .refBlank 0 .low (.transmit [0x28#8] 8 .low) [.txDone false],
    refreshing .refWindow 0 .low (.transmit params.windowBlock.toList 112 .low) [.txDone false],
    refreshing .refData 0 .high (chunkWrite [] 0) [.txDone false],
    refreshing .refData 38 .high (chunkWrite [] 38) [.txDone false],
    refreshing .refData 39 .high (chunkWrite [] 39) [.txDone false],
    refreshing .refUnblank 40 .low (.transmit [0x29#8] 8 .low) [.txDone false] ]

theorem witness_RefreshRowsInOrder :
    (∀ s ∈ refreshRowStates, s.busy = true ∧ s.outstanding = rowRequest s ∧ s.inputs = .txDone false :: []) ∧
      refreshRowStates.map (fun s => (s.seq, s.chunk)) =
        [(.refBlank, 0), (.refWindow, 0), (.refData, (0 : Fin 40).castSucc), (.refData, (38 : Fin 40).castSucc), (.refData, 39),
          (.refUnblank, 40)] ∧
      ∀ ok' rest', ([] : List Input) ≠ .txDone ok' :: rest' := by
  refine ⟨fun s hs => ?_, rfl, fun _ _ => nofun⟩
  simp only [refreshRowStates, List.mem_cons, List.not_mem_nil, or_false] at hs
  rcases hs with rfl | rfl | rfl | rfl | rfl | rfl <;> exact ⟨rfl, rfl, rfl⟩
/-- One answer now, the next one later: from a waiting state, and from the acceptance. -/
theorem witness_AnswersMayComeInPortions :
    ((atInitBus []).busy = true ∧ (atInitBus []).outstanding = rowRequest (atInitBus []) ∧
      (rowRequest (atInitBus [])).isSome = true ∧
      step { atInitBus [] with inputs := answers [true] } =
        .next { inPulse .initRstHi .high (.sleep 80) [] with trace := [⟨.busInit 10000000 0 7, .z, some .ok⟩] }) ∧
    ((offering 0x10000000#32 (uninit [])).busy = false ∧ (offering 0x10000000#32 (uninit [])).offered = some 0x10000000#32 ∧
      (offering 0x10000000#32 (uninit [])).outstanding = none ∧
      step { offering 0x10000000#32 (uninit []) with inputs := answers [true] } =
        .next { inPulse .initRstHi .high (.sleep 80) [] with trace := [⟨.busInit 10000000 0 7, .z, some .ok⟩] }) ∧
    (inPulse .initRstHi .high (.sleep 80) []).busy = true :=
  ⟨⟨rfl, rfl, rfl, rfl⟩, ⟨rfl, rfl, rfl, rfl⟩, rfl⟩
theorem witness_OnlyTheNamedCommandsWrite : exec .halt failed = .next (failed.responded .ok 0x00#8) := rfl
theorem witness_NoCommandWritesWhatIsTheHosts :
    exec (.refresh true) (uninit []) = .next ((uninit []).responded .errState 0x00#8) := rfl
theorem witness_FailedDriverRejectsAllButHalt : failed.drv = .failed ∧ Instr.init ≠ .halt := by decide

/-- The invariant holds in a state that waits inside INIT, and in READY with a converted byte, whatever inputs are to come. -/
theorem inv_inputs (s : State) (l : List Input) (h : s.Inv) : ({ s with inputs := l } : State).Inv :=
  ⟨⟨h.memory.fb_wf, h.memory.fb_below, h.memory.src_wf, h.memory.src_below⟩,
    ⟨h.control.idle_iff, h.control.idle_quiet, h.control.waiting, h.control.initializing_iff, h.control.refresh_ready⟩,
    ⟨h.lines.undriven, h.lines.pulseHigh, h.lines.pulseLow, h.lines.driven, h.lines.failed⟩,
    ⟨h.values.zeroed, h.values.dirty, h.values.response, h.values.loadMap⟩⟩
theorem inv_offered (s : State) (w : Option Word) (h : s.Inv) : ({ s with offered := w } : State).Inv :=
  ⟨⟨h.memory.fb_wf, h.memory.fb_below, h.memory.src_wf, h.memory.src_below⟩,
    ⟨h.control.idle_iff, h.control.idle_quiet, h.control.waiting, h.control.initializing_iff, h.control.refresh_ready⟩,
    ⟨h.lines.undriven, h.lines.pulseHigh, h.lines.pulseLow, h.lines.driven, h.lines.failed⟩,
    ⟨h.values.zeroed, h.values.dirty, h.values.response, h.values.loadMap⟩⟩
theorem inv_atInitBus (l : List Input) : (atInitBus l).Inv :=
  inv_inputs (atInitBus []) l
    ⟨⟨by decide, by decide, by decide, by decide⟩, ⟨by decide, by decide, by decide, by decide, by decide⟩,
      ⟨by decide, by decide, by decide, by decide, by decide⟩, ⟨by decide, by decide, by decide, by decide⟩⟩
theorem inv_ready (l : List Input) : (ready [(8, 0xB7#8)] l).Inv :=
  inv_inputs (ready [(8, 0xB7#8)] []) l
    ⟨⟨by decide, by decide, by decide, by decide⟩, ⟨by decide, by decide, by decide, by decide, by decide⟩,
      ⟨by decide, by decide, by decide, by decide, by decide⟩, ⟨by decide, by decide, by decide, by decide⟩⟩

theorem inv_uninit (w : Option Word) (l : List Input) : ({ uninit l with offered := w } : State).Inv :=
  inv_offered (uninit l) w (inv_inputs (uninit []) l
    ⟨⟨by decide, by decide, by decide, by decide⟩, ⟨by decide, by decide, by decide, by decide, by decide⟩,
      ⟨by decide, by decide, by decide, by decide, by decide⟩, ⟨by decide, by decide, by decide, by decide⟩⟩)
theorem inv_failed : failed.Inv :=
  ⟨⟨by decide, by decide, by decide, by decide⟩, ⟨by decide, by decide, by decide, by decide, by decide⟩,
    ⟨by decide, by decide, by decide, by decide, by decide⟩, ⟨by decide, by decide, by decide, by decide⟩⟩

/-- A command; a step that accepts a word, one that finds BUSY = 1, one that does neither, and a reset. -/
theorem witness_OneResponsePerCommand :
    exec .halt (ready [] []) = .next ((ready [] []).responded .ok 0x00#8) ∧
    ((offering 0x70000000#32 (uninit [])).Inv ∧ (offering 0x70000000#32 (uninit [])).inputs.head? ≠ some .reset ∧
      (offering 0x70000000#32 (uninit [])).offered.isSome = true) ∧
    ((atInitBus [.pass]).Inv ∧ (atInitBus [.pass]).inputs.head? ≠ some .reset ∧ (atInitBus [.pass]).busy = true) ∧
    ((uninit []).Inv ∧ (uninit []).busy = false ∧ (uninit []).offered = none) ∧
    ((atInitBus [.reset]).Inv ∧ (atInitBus [.reset]).inputs.head? = some .reset) :=
  ⟨rfl, ⟨inv_uninit _ _, by decide, rfl⟩, ⟨inv_atInitBus _, by decide, rfl⟩, ⟨inv_uninit none _, rfl, rfl⟩,
    ⟨inv_atInitBus _, rfl⟩⟩

/-- Each clause: a reset; UNINIT with no INIT and with an accepted INIT that waits, fails or (INIT_SEQ empty) completes; INITIALIZING
that waits and that fails; READY; FAILED. -/
theorem witness_DrvStateTransitions :
    ((atInitBus [.reset]).Inv ∧ (atInitBus [.reset]).inputs.head? = some .reset) ∧
    ((uninit []).Inv ∧ (uninit []).drv = .uninit ∧ stepsTo (uninit []) (fun t => t.drv == .uninit) = true) ∧
    (∀ l, (offering 0x10000000#32 (uninit l)).Inv) ∧
    stepsTo (offering 0x10000000#32 (uninit [])) (fun t => t.drv == .initializing && t.busy) = true ∧
    stepsTo (offering 0x10000000#32 (uninit [.txDone false])) (fun t => t.drv == .failed && !t.busy) = true ∧
    stepsTo (offering 0x10000000#32 (uninit (answers (List.replicate 6 true)))) (fun t => t.drv == .ready && !t.busy) = true ∧
    ((∀ l, (atInitBus l).Inv) ∧ stepsTo (atInitBus [.txDone true]) (fun t => t.drv == .initializing && t.busy) = true ∧
      stepsTo (atInitBus [.txDone false]) (fun t => t.drv == .failed && !t.busy) = true) ∧
    ((ready [(8, 0xB7#8)] []).Inv ∧ (ready [(8, 0xB7#8)] []).drv = .ready) ∧ (failed.Inv ∧ failed.drv = .failed) :=
  ⟨⟨inv_atInitBus _, rfl⟩, ⟨inv_uninit none _, rfl, by decide⟩, fun _ => inv_uninit _ _, by decide, by decide, by decide,
    ⟨fun _ => inv_atInitBus _, by decide, by decide⟩, ⟨inv_ready _, rfl⟩, ⟨inv_failed, rfl⟩⟩
theorem witness_StepKeepsTheInvariant :
    (ready [(8, 0xB7#8)] [.txDone true]).Inv ∧
      step (ready [(8, 0xB7#8)] [.txDone true]) = .next (ready [(8, 0xB7#8)] []) := ⟨inv_ready _, rfl⟩
theorem witness_StepKeepsMemoriesCanonical :
    (ready [(8, 0xB7#8)] []).MemoryOk ∧ step (ready [(8, 0xB7#8)] []) = .next (ready [(8, 0xB7#8)] []) :=
  ⟨(inv_ready _).memory, rfl⟩
/-- A write of SRC while BUSY = 1, the same write while BUSY = 0, and no write while BUSY = 1. -/
theorem witness_StepsAnswerNextButForBusySrcWrites :
    ((atInitBus [.srcWrite 0#16 1#8]).Inv ∧ (atInitBus [.srcWrite 0#16 1#8]).busy = true ∧
      (atInitBus [.srcWrite 0#16 1#8]).inputs = .srcWrite 0#16 1#8 :: []) ∧
    ((uninit [.srcWrite 0#16 1#8]).Inv ∧ (uninit [.srcWrite 0#16 1#8]).busy = false) ∧
    ((atInitBus []).Inv ∧ ∀ a v rest, (atInitBus []).inputs ≠ .srcWrite a v :: rest) :=
  ⟨⟨inv_atInitBus _, rfl, rfl⟩, ⟨inv_uninit none _, rfl⟩, ⟨inv_atInitBus _, fun _ _ _ => nofun⟩⟩
theorem witness_OnlyTheListedRequestsAreIssued :
    (atInitBus [.txDone true]).Inv ∧
      step (atInitBus [.txDone true]) =
        .next { inPulse .initRstHi .high (.sleep 80) [] with trace := [⟨.busInit 10000000 0 7, .z, some .ok⟩] } :=
  ⟨inv_atInitBus _, rfl⟩
/-- Two states that differ in CMD, CHUNK and FB before the zero-fill. -/
theorem witness_UnspecifiedStateIsNeverObserved :
    (uninit []).MemoryOk ∧ ({ uninit [] with cmd := 1#32, chunk := 7, fb := [(3, 1#8)] } : State).MemoryOk ∧
      (uninit []).observable = ({ uninit [] with cmd := 1#32, chunk := 7, fb := [(3, 1#8)] } : State).observable :=
  ⟨⟨by decide, by decide, by decide, by decide⟩, ⟨by decide, by decide, by decide, by decide⟩, rfl⟩
/-- Each form with operands at both sides of a field's width, a level as a code and as a name, and a code that is no level. -/
theorem witness_LinesAssembleToTheirCommands :
    number "0".toList = some 0 ∧ number "1".toList = some 1 ∧ number "2".toList = some 2 ∧
      number "255".toList = some 255 ∧ number "0xFF".toList = some 255 ∧ number "256".toList = some 256 ∧
      number "32767".toList = some 32767 ∧ number "32768".toList = some 32768 ∧ number "65535".toList = some 65535 ∧
      number "65536".toList = some 65536 ∧ number "3".toList = some Level.white.code.toNat ∧
      levelName .white = "WHITE".toList ∧ number "4".toList = some 4 ∧
      assembleLine "HALT".toList = .word 0x70000000#32 := by decide

end Sys2Proof.Tests
end

section
/-! ## What a command can do, what a step can do, and a run row by row -/

namespace Sys2Proof.Machine

/-! ### Words -/

/-- Every well-formed command survives encoding (30_encoding.md R71, R73, R76). -/
theorem decode_encode (i : Instr) (h : i.WellFormed) : decode (encode i) = .command i := by
  cases i with
  | init => decide
  | clear rs re =>
    have hop := Laws.EncodedOpcode.clear rs re h
    simp only [Instr.WellFormed, Instr.wellFormed, Bool.and_eq_true, decide_eq_true_eq] at h
    have hf : bits (encode (.clear rs re)) 11 0 = 0 ∧
        bits (encode (.clear rs re)) 27 20 = rs ∧
        bits (encode (.clear rs re)) 19 12 = re := by
      simp only [bits_encode, Instr.wordValue]
      omega
    simp only [decode, hop, Instr.opcode, hf, withReserved, if_true]
  | blank => decide
  | setPixel x y p =>
    have hop := Laws.EncodedOpcode.setPixel x y p h
    have hp := p.isLt
    simp only [Instr.WellFormed, Instr.wellFormed, Bool.and_eq_true, decide_eq_true_eq] at h
    have hf : bits (encode (.setPixel x y p)) 11 8 = 0 ∧
        bits (encode (.setPixel x y p)) 27 20 = x ∧
        bits (encode (.setPixel x y p)) 19 12 = y ∧
        bits (encode (.setPixel x y p)) 7 0 = p.toNat := by
      simp only [bits_encode, Instr.wordValue]
      omega
    simp only [decode, hop, Instr.opcode, hf, withReserved, if_true, BitVec.ofNat_toNat, BitVec.setWidth_eq]
  | loadImage len =>
    have hop := Laws.EncodedOpcode.loadImage len h
    simp only [Instr.WellFormed, Instr.wellFormed, decide_eq_true_eq] at h
    have hf : bits (encode (.loadImage len)) 27 16 = 0 ∧
        bits (encode (.loadImage len)) 15 0 = len := by
      simp only [bits_encode, Instr.wordValue]
      omega
    simp only [decode, hop, Instr.opcode, hf, withReserved, if_true]
  | refresh b => cases b <;> decide
  | halt => decide
  | readByte addr =>
    have hop := Laws.EncodedOpcode.readByte addr h
    simp only [Instr.WellFormed, Instr.wellFormed, decide_eq_true_eq] at h
    have hf : bits (encode (.readByte addr)) 27 15 = 0 ∧
        bits (encode (.readByte addr)) 14 0 = addr := by
      simp only [bits_encode, Instr.wordValue]
      omega
    simp only [decode, hop, Instr.opcode, hf, withReserved, if_true]
  | getPixel x y =>
    have hop := Laws.EncodedOpcode.getPixel x y h
    simp only [Instr.WellFormed, Instr.wellFormed, Bool.and_eq_true, decide_eq_true_eq] at h
    have hf : bits (encode (.getPixel x y)) 11 0 = 0 ∧
        bits (encode (.getPixel x y)) 27 20 = x ∧
        bits (encode (.getPixel x y)) 19 12 = y := by
      simp only [bits_encode, Instr.wordValue]
      omega
    simp only [decode, hop, Instr.opcode, hf, withReserved, if_true]

theorem withReserved_eq_command {n : Nat} {i j : Instr} : withReserved n i = .command j ↔ n = 0 ∧ i = j := by
  unfold withReserved
  split <;> simp [*]

/-- INIT has one word. -/
theorem decode_eq_init (w : Word) : decode w = .command .init ↔ w = encode .init := by
  refine ⟨fun h => ?_, fun h => h ▸ decode_encode .init rfl⟩
  unfold decode at h
  split at h <;> simp only [withReserved_eq_command, reduceCtorEq, and_false, and_true] at h
  next hop =>
    have hlt := w.isLt
    simp only [bits_eq] at hop h
    apply BitVec.eq_of_toNat_eq
    rw [show (encode .init).toNat = 268435456 from rfl]
    omega

/-! ### Commands -/

/-- What a command can do to a state: it is rejected for the state of the driver or for an operand, or, its checks passed, its rule
applies (40_framebuffer.md R102 to R108, 41_sequencer.md R151, R153, R155). -/
inductive CommandEffect (s : State) : Instr → State → Prop where
  | notNow (i : Instr) (hi : i ≠ .halt) (hd : s.drv ≠ if i = .init then .uninit else .ready) :
      CommandEffect s i (raise .errState s)
  | badOperand (i : Instr) (e : Status) (hi : i ≠ .init) (hd : s.drv = .ready)
      (he : e = .errBounds ∨ e = .errLength ∨ e = .errLevel) : CommandEffect s i (raise e s)
  | init (hd : s.drv = .uninit) :
      CommandEffect s .init (runSequencer { s with drv := .initializing, busy := true, seq := .initBus })
  | clear (rs re : Nat) (hd : s.drv = .ready) :
      CommandEffect s (.clear rs re) (ok 0x00#8 (s.zeroFb (128 * rs) (128 * re)))
  | blank (hd : s.drv = .ready) : CommandEffect s .blank (ok 0x00#8 (s.zeroFb 0 20480))
  | setPixel (x y : Nat) (p : Byte) (hd : s.drv = .ready) (hxy : x < 240 ∧ y < 160) :
      CommandEffect s (.setPixel x y p) (ok 0x00#8
        { s with fb := s.fb.write (pixAddr x y) (withField (s.fb.read (pixAddr x y)) (pixShift x) p) })
  | loadImage (hd : s.drv = .ready) :
      CommandEffect s (.loadImage 9600) (ok 0x00#8
        { s with fb := Memory.ofFn (imageByte s) 0 20480, dirtyMin := 0#16, dirtyMax := 159#16 })
  | refresh (b : Bool) (hd : s.drv = .ready) :
      CommandEffect s (.refresh b)
        (runSequencer { s with werr := false, busy := true, seq := if b then .refWindow else .refBlank })
  | halt : CommandEffect s .halt (ok 0x00#8 s)
  | readByte (addr : Nat) (hd : s.drv = .ready) : CommandEffect s (.readByte addr) (ok (s.fb.read addr) s)
  | getPixel (x y : Nat) (hd : s.drv = .ready) :
      CommandEffect s (.getPixel x y) (ok (fieldOf (s.fb.read (pixAddr x y)) (pixShift x)) s)

/-- A command behind the ready check is rejected, or runs its rule in READY. -/
theorem requireReady_cases (i : Instr) (s t : State) (rule : State → State) (h : requireReady s rule = .next t)
    (hi : i ≠ .init) (hh : i ≠ .halt) (hr : s.drv = .ready → CommandEffect s i (rule s)) : CommandEffect s i t := by
  by_cases hd : s.drv = .ready
  · rw [requireReady_of_ready s rule hd] at h
    cases h
    exact hr hd
  · rw [requireReady_of_not_ready s rule hd] at h
    cases h
    exact .notNow i hh (by rwa [if_neg hi])

/-- Every outcome of a command is one of its effects. -/
theorem exec_effect (i : Instr) (s t : State) (h : exec i s = .next t) : CommandEffect s i t := by
  cases i with
  | init =>
    by_cases hd : s.drv = .uninit
    · rw [show exec .init s = _ from if_pos hd] at h
      cases h
      exact .init hd
    · rw [show exec .init s = _ from if_neg hd] at h
      cases h
      exact .notNow _ nofun hd
  | clear rs re =>
    simp only [exec, execClear] at h
    refine requireReady_cases _ s t _ h nofun nofun fun hd => ?_
    split
    · exact .clear rs re hd
    · exact .badOperand _ _ nofun hd (.inl rfl)
  | blank =>
    simp only [exec, execBlank] at h
    exact requireReady_cases _ s t _ h nofun nofun fun hd => .blank hd
  | setPixel x y p =>
    simp only [exec, execSetPixel] at h
    refine requireReady_cases _ s t _ h nofun nofun fun hd => ?_
    split
    next hxy =>
      split
      · exact .setPixel x y p hd ((inPanel_iff x y).1 hxy)
      · exact .badOperand _ _ nofun hd (.inr (.inr rfl))
    next => exact .badOperand _ _ nofun hd (.inl rfl)
  | loadImage len =>
    simp only [exec, execLoadImage] at h
    refine requireReady_cases _ s t _ h nofun nofun fun hd => ?_
    split
    next hlen => subst hlen; exact .loadImage hd
    next => exact .badOperand _ _ nofun hd (.inr (.inl rfl))
  | refresh b =>
    simp only [exec, execRefresh] at h
    exact requireReady_cases _ s t _ h nofun nofun fun hd => .refresh b hd
  | halt => cases h; exact .halt
  | readByte addr =>
    simp only [exec, execReadByte] at h
    refine requireReady_cases _ s t _ h nofun nofun fun hd => ?_
    split
    · exact .readByte addr hd
    · exact .badOperand _ _ nofun hd (.inl rfl)
  | getPixel x y =>
    simp only [exec, execGetPixel] at h
    refine requireReady_cases _ s t _ h nofun nofun fun hd => ?_
    split
    · exact .getPixel x y hd
    · exact .badOperand _ _ nofun hd (.inl rfl)

/-! ### Steps -/

/-- What a step can do from a state whose control is in order: a reset, a move of the outside world that reaches no command, an
accepted word, illegal or a command, or an answer to the outstanding request of the row. -/
inductive StepEffect (s : State) : State → Prop where
  | reset (l : List Input) (hi : s.inputs = .reset :: l) :
      StepEffect s (blockReset { s with offered := if s.busy then s.offered else none, inputs := l })
  | outside (o : Option Word) (m : Memory) (l : List Input) (hr : s.inputs.head? ≠ some .reset)
      (hq : s.busy = true ∨ s.offered = none)
      (hm : m = s.src ∨ ∃ (a : BitVec 16) (v : Byte), m = s.src.write a.toNat v) :
      StepEffect s { s with offered := o, src := m, inputs := l }
  | illegal (w : Word) (why : Illegal) (hr : s.inputs.head? ≠ some .reset) (hb : s.busy = false)
      (ho : s.offered = some w) (hd : decode w = .illegal why) : StepEffect s (raise .errOpcode (acceptWord w s))
  | command (w : Word) (i : Instr) (t : State) (hr : s.inputs.head? ≠ some .reset) (hb : s.busy = false)
      (ho : s.offered = some w) (hd : decode w = .command i) (he : CommandEffect (acceptWord w s) i t) : StepEffect s t
  | answer (b : Bool) (l : List Input) (hi : s.inputs = .txDone b :: l) (hb : s.busy = true)
      (ho : s.outstanding.isSome = true) : StepEffect s (runSequencer (answered b { s with inputs := l }))

/-- A step of an idle block with nothing offered is a move of the outside world. -/
theorem step_effect_of_idle (s t : State) (hb : s.busy = false) (ho : s.offered = none) (h : step s = .next t)
    (hr : s.inputs.head? ≠ some .reset) : StepEffect s t := by
  rcases hi : s.inputs with _ | ⟨i, l⟩
  · rw [step_idle_nothing s hb ho hi] at h
    cases h
    exact .outside s.offered s.src s.inputs hr (.inr ho) (.inl rfl)
  · rw [step_idle_input s i l hb ho hi] at h
    cases h
    cases i with
    | offer w => exact .outside (some w) s.src l hr (.inr ho) (.inl rfl)
    | srcWrite a v => exact .outside s.offered (s.src.write a.toNat v) l hr (.inr ho) (.inr ⟨a, v, rfl⟩)
    | txDone b => exact .outside s.offered s.src l hr (.inr ho) (.inl rfl)
    | reset => simp [hi] at hr
    | pass => exact .outside s.offered s.src l hr (.inr ho) (.inl rfl)

/-- A step of an idle block with a word offered accepts the word. -/
theorem step_effect_of_offered (s t : State) (w : Word) (hb : s.busy = false) (ho : s.offered = some w)
    (h : step s = .next t) (hr : s.inputs.head? ≠ some .reset) : StepEffect s t := by
  rw [step_idle s hb] at h
  simp only [idleStep, ho, acceptStep_of_not_reset w s hr, runCommand, acceptWord, accept_cmd] at h
  cases hd : decode w with
  | command i => simp only [hd] at h; exact .command w i t hr hb ho hd (by rw [acceptWord, hd]; exact exec_effect i _ t h)
  | illegal why =>
    have ht : raise .errOpcode (acceptWord w s) = t := by simpa [acceptWord, hd] using h
    exact ht ▸ .illegal w why hr hb ho hd

/-- A step of a block that waits on its row's request is a move of the outside world or the answer. -/
theorem step_effect_of_waiting (s t : State) (r : Request) (hb : s.busy = true) (ho : s.outstanding = some r)
    (hw : (rowRequest s).isSome = true) (h : step s = .next t) (hr : s.inputs.head? ≠ some .reset) : StepEffect s t := by
  rw [step_waiting s r hb ho hw] at h
  unfold waitingStep at h
  split at h
  next => cases h; exact .outside s.offered s.src s.inputs hr (.inl hb) (.inl rfl)
  next b l hi =>
    rw [hi, consume_eq_runSequencer b l s (by simp [ho])] at h
    cases h
    exact .answer b l hi hb (by simp [ho])
  next w l hi => cases h; exact .outside (some w) s.src l hr (.inl hb) (.inl rfl)
  next => cases h
  next l hi => simp [hi] at hr
  next l hi => cases h; exact .outside s.offered s.src l hr (.inl hb) (.inl rfl)

/-- Every step from a state whose control is in order is one of the step's effects. -/
theorem step_effect (s t : State) (hc : s.ControlOk) (h : step s = .next t) : StepEffect s t := by
  by_cases hr : s.inputs.head? = some .reset
  · obtain ⟨l, hi⟩ := List.head?_eq_some_iff.1 hr
    rw [step_reset s l hi] at h
    cases h
    exact .reset l hi
  · cases hb : s.busy with
    | false =>
      cases ho : s.offered with
      | none => exact step_effect_of_idle s t hb ho h hr
      | some w => exact step_effect_of_offered s t w hb ho h hr
    | true =>
      obtain ⟨hw, ho⟩ := hc.waiting hb
      obtain ⟨r, hrow⟩ := Option.isSome_iff_exists.1 hw
      exact step_effect_of_waiting s t r hb (ho.trans hrow) hw h hr

/-! ### Runs, row by row -/

/-- The next chunk writes CHUNK only. -/
theorem nextChunk_eq (s : State) : nextChunk s = { s with chunk := (nextChunk s).chunk } := by
  unfold nextChunk
  split <;> rfl

/-- What CHUNK becomes depends on CHUNK only. -/
theorem nextChunk_chunk_congr {s t : State} (h : t.chunk = s.chunk) : (nextChunk t).chunk = (nextChunk s).chunk := by
  by_cases hk : s.chunk.val < 40
  · simp [nextChunk, h, hk]
  · simp [nextChunk, h, hk]

/-- The most rows without a request that can follow each other from a position of SEQ on (41_sequencer.md R152, R154). -/
def silentRows : Seq → Nat
  | .initLines => 2
  | .initZero | .initCmds | .refData => 1
  | .idle | .exec | .initBus | .initRstHi | .initRstLo | .initRstRel | .refBlank | .refWindow | .refUnblank => 0

theorem silentRows_le (q : Seq) : silentRows q < 3 := by cases q <;> decide

/-- The rows without a request: INIT_LINES, INIT_ZERO, and INIT_CMDS and REF_DATA with everything sent. -/
theorem silent_row_cases (s : State) (hrow : hasRow s = true) (hr : rowRequest s = none) :
    s.seq = .initLines ∨ s.seq = .initZero ∨ (s.seq = .initCmds ∧ s.params.initSeq[s.initIdx]? = none) ∨
      (s.seq = .refData ∧ ¬s.chunk.val < 40) := by
  cases hq : s.seq <;> simp [rowRequest, hasRow, hq] at hrow hr ⊢
  · exact hr
  · exact hr

/-- A row without a request moves on to a position from which fewer of them can follow. -/
theorem silentRows_rowAction (s : State) (hrow : hasRow s = true) (hr : rowRequest s = none) :
    silentRows (rowAction s).seq < silentRows s.seq := by
  obtain hq | hq | ⟨hq, he⟩ | ⟨hq, hk⟩ := silent_row_cases s hrow hr
  · rw [rowAction_initLines s hq, hq]; exact Nat.one_lt_two
  · rw [rowAction_initZero s hq, hq]; exact Nat.one_pos
  · rw [rowAction_initCmds_end s hq he, hq]; exact Nat.one_pos
  · rw [rowAction_refData_end s hq hk, hq]; exact Nat.one_pos

/-- The rows of a run one at a time: P holds between two rows, Q while the run waits or has ended. If a row with a request takes P
to Q, a row without one keeps P, an answer takes Q to P, and a state of P without a row is one of Q, then a run from P ends in Q. -/
theorem runSequencer_by_rows (P Q : State → Prop) (hquiet : ∀ s, P s → s.outstanding = none)
    (hstop : ∀ s, P s → hasRow s = false → Q s)
    (hreq : ∀ s r, P s → rowRequest s = some r → Q (rowAction s))
    (hgo : ∀ s, P s → hasRow s = true → rowRequest s = none → P (rowAction s))
    (hans : ∀ s b l, Q s → s.outstanding.isSome = true → P (answered b { s with inputs := l })) (s : State) (h : P s) :
    Q (runSequencer s) := by
  have hset : ∀ n s, P s → silentRows s.seq < n → Q (settle n s) := by
    intro n
    induction n with
    | zero => exact fun s _ hn => absurd hn (Nat.not_lt_zero _)
    | succ n ih =>
      intro s hs hn
      cases hrow : hasRow s with
      | false => rw [settle_of_noRow _ s hrow]; exact hstop s hs hrow
      | true =>
        cases hr : rowRequest s with
        | some r => rw [settle_request n s r (hquiet s hs) hr]; exact hreq s r hs hr
        | none =>
          rw [settle_succ n s (hquiet s hs) hrow]
          have hlt := silentRows_rowAction s hrow hr
          exact ih _ (hgo s hs hrow hr) (by omega)
  exact runSequencer_settled P Q (fun s hs => hset 3 s hs (silentRows_le _)) hans s h

end Sys2Proof.Machine
end

section
/-! ## The invariant

`State.Base` is the part of the invariant that does not depend on where SEQ stands; with it a completed command leaves a state of
the invariant. `State.Running` is what holds inside a step between two requests, with the line levels as a parameter: those before
a row's own writes, or those its request was issued with. -/

namespace Sys2Proof.Machine

/-- The line levels that go with DRV_STATE (10_state.md R27, R28); during INIT they go with the row. -/
def drvLines (d : DrvState) (dc rst : Pin) : Prop :=
  match d with
  | .uninit => dc = .z ∧ rst = .z
  | .initializing => True
  | .ready => dc ≠ .z ∧ rst = .high
  | .failed => dc = .z ∧ rst = .z ∨ dc ≠ .z ∧ rst = .high

/-- The line levels before a row of INIT's table does its own writes (41_sequencer.md R152). -/
def rowLines (q : Seq) (dc rst : Pin) : Prop :=
  match q with
  | .initBus => dc = .z ∧ rst = .z
  | .initZero | .initRstHi => dc = .low ∧ rst = .high
  | .initRstLo | .initRstRel => dc = .low
  | .initCmds => dc ≠ .z ∧ rst = .high
  | .idle | .exec | .initLines | .refBlank | .refWindow | .refData | .refUnblank => True

/-- The line levels while the request of a row of INIT's table is outstanding (41_sequencer.md R152). -/
def issuedLines (q : Seq) (dc rst : Pin) : Prop :=
  match q with
  | .initBus => dc = .z ∧ rst = .z
  | .initRstHi | .initRstRel => dc = .low ∧ rst = .high
  | .initRstLo => dc = .low ∧ rst = .low
  | .initCmds => dc ≠ .z ∧ rst = .high
  | .idle | .exec | .initLines | .initZero | .refBlank | .refWindow | .refData | .refUnblank => True

/-- What the invariant says of a state wherever SEQ stands. -/
structure State.Base (s : State) : Prop where
  memory  : s.MemoryOk
  lines   : drvLines s.drv s.dc s.rst
  dirty   : s.dirtyMin = 0xFFFF#16 ∧ s.dirtyMax = 0xFFFF#16 ∨
    s.drv = .ready ∧ s.dirtyMin = 0#16 ∧ s.dirtyMax = 159#16
  loadMap : s.params.loadMap.bijective

/-- A command runs at a row and no request is outstanding; `lines` gives the line levels there. -/
structure State.Running (lines : Seq → Pin → Pin → Prop) (s : State) : Prop where
  base     : s.Base
  quiet    : s.outstanding = none
  busy     : s.busy = true
  drv      : s.drv = if s.seq.isInit then .initializing else .ready
  levels   : lines s.seq s.dc s.rst
  zeroed   : s.seq.pastZeroFill = true → s.fb = []
  response : s.rspStatus ≠ .ok → s.rspData = 0x00#8

/-- The next move is the row SEQ stands at. -/
def State.AtRow (s : State) : Prop := s.Running rowLines ∧ hasRow s = true

/-- A state of the invariant between two commands. -/
def State.Completed (s : State) : Prop := s.Inv ∧ s.seq = .idle

/-! ### The parts -/

/-- A completed command has no request outstanding. -/
theorem State.Completed.quiet {s : State} (h : s.Completed) : s.outstanding = none :=
  h.1.control.idle_quiet (h.1.control.idle_iff.2 h.2)

/-- Whether the memories are in order depends on the memories only. -/
theorem State.MemoryOk.congr {s t : State} (h : s.MemoryOk) (hfb : t.fb = s.fb) (hsrc : t.src = s.src) : t.MemoryOk :=
  ⟨hfb ▸ h.fb_wf, hfb ▸ h.fb_below, hsrc ▸ h.src_wf, hsrc ▸ h.src_below⟩

/-- During INIT the line levels go with the row. -/
theorem drvLines_initializing {d : DrvState} {dc rst : Pin} (h : d = .initializing) : drvLines d dc rst := by
  subst h
  trivial

theorem State.Inv.base {s : State} (h : s.Inv) : s.Base where
  memory := h.memory
  lines := by
    cases hd : s.drv with
    | uninit => exact h.lines.undriven (.inl hd)
    | initializing => trivial
    | ready => exact h.lines.driven (.inl hd)
    | failed => exact h.lines.failed hd
  dirty := h.values.dirty
  loadMap := h.values.loadMap

/-- In the invariant a command runs in INITIALIZING at a row of INIT, or in READY at a row of REFRESH. -/
theorem State.Inv.running {s : State} (h : s.Inv) (hb : s.busy = true) :
    s.drv = .initializing ∧ s.seq.isInit = true ∨ s.drv = .ready ∧ s.seq.isRefresh = true := by
  obtain ⟨hw, -⟩ := h.control.waiting hb
  cases hi : s.seq.isInit with
  | true => exact .inl ⟨h.control.initializing_iff.2 hi, rfl⟩
  | false =>
    have hf : s.seq.isRefresh = true := by
      cases hq : s.seq <;> simp [hq, rowRequest, Seq.isInit] at hw hi <;> rfl
    exact .inr ⟨h.control.refresh_ready hf, hf⟩

/-- In the invariant an idle block is not INITIALIZING. -/
theorem State.Inv.not_initializing {s : State} (h : s.Inv) (hb : s.busy = false) : s.drv ≠ .initializing := by
  intro hd
  have hi := h.control.initializing_iff.1 hd
  rw [h.control.idle_iff.1 hb] at hi
  cases hi

/-- Outside READY, DIRTY is the sentinel. -/
theorem State.Base.sentinel {s : State} (h : s.Base) (hd : s.drv ≠ .ready) :
    s.dirtyMin = 0xFFFF#16 ∧ s.dirtyMax = 0xFFFF#16 := by
  rcases h.dirty with hs | ⟨hr, -⟩
  · exact hs
  · exact absurd hr hd

/-- A state with SEQ = IDLE and BUSY = 0 meets the invariant when it meets what does not depend on SEQ. -/
theorem State.Base.inv_of_idle {s : State} (h : s.Base) (hb : s.busy = false) (hq : s.seq = .idle)
    (ho : s.outstanding = none) (hd : s.drv ≠ .initializing) (hr : s.rspStatus ≠ .ok → s.rspData = 0x00#8) : s.Inv := by
  have hl := h.lines
  refine ⟨h.memory, ⟨by simp [hb, hq], fun _ => ho, by simp [hb], by simp [hq, hd, Seq.isInit], by simp [hq, Seq.isRefresh]⟩,
    ⟨?_, by simp [hq], by simp [hq], ?_, ?_⟩, ⟨by simp [hq, Seq.pastZeroFill], h.dirty, hr, h.loadMap⟩⟩
  · rintro (hd | hd)
    · rwa [hd] at hl
    · simp [hq] at hd
  · rintro (hd | hd)
    · rwa [hd] at hl
    · simp [hq] at hd
  · intro hd
    rwa [hd] at hl

/-- A completion outside INIT, with no request outstanding, leaves a completed state; an error's data is 0x00. -/
theorem State.Base.completed_complete {s : State} (h : s.Base) (ho : s.outstanding = none) (hd : s.drv ≠ .initializing)
    (st : Status) (d : Byte) (hr : st ≠ .ok → d = 0x00#8) : (complete st d s).Completed :=
  ⟨State.Base.inv_of_idle ⟨h.memory.congr rfl rfl, h.lines, h.dirty, h.loadMap⟩ rfl rfl ho hd hr, rfl⟩

theorem State.Base.completed_raise {s : State} (h : s.Base) (ho : s.outstanding = none) (hd : s.drv ≠ .initializing)
    (e : Status) : (raise e s).Completed := h.completed_complete ho hd e _ fun _ => rfl

theorem State.Base.completed_ok {s : State} (h : s.Base) (ho : s.outstanding = none) (hd : s.drv ≠ .initializing)
    (d : Byte) : (ok d s).Completed := h.completed_complete ho hd .ok d fun hne => absurd rfl hne

/-- A failed INIT leaves a completed state, if the lines are both undriven or both as after the reset pulse. -/
theorem State.Base.completed_initFails {s : State} (h : s.Base) (ho : s.outstanding = none) (hd : s.drv ≠ .ready)
    (hl : drvLines .failed s.dc s.rst) (e : Status) : (initFails e s).Completed :=
  State.Base.completed_raise (s := { s with drv := .failed })
    ⟨h.memory.congr rfl rfl, hl, .inl (h.sentinel hd), h.loadMap⟩ ho (by simp) e

/-! ### Between the rows -/

/-- At a row of INIT's table DRV_STATE is INITIALIZING. -/
theorem State.Running.initializing {lines : Seq → Pin → Pin → Prop} {s : State} (h : s.Running lines)
    (hq : s.seq.isInit = true) : s.drv = .initializing := by rw [h.drv, if_pos hq]

/-- At a row of REFRESH's table DRV_STATE is READY, so the panel is driven. -/
theorem State.Running.ready {lines : Seq → Pin → Pin → Prop} {s : State} (h : s.Running lines)
    (hq : s.seq.isInit = false) : s.drv = .ready ∧ s.dc ≠ .z ∧ s.rst = .high := by
  have hd : s.drv = .ready := by rw [h.drv, hq]; rfl
  have hl := h.base.lines
  rw [hd] at hl
  exact ⟨hd, hl⟩

/-- The command goes on at another row of its table, with the counters and WERR at any values. -/
theorem State.Running.move {lines lines' : Seq → Pin → Pin → Prop} {s : State} (h : s.Running lines) (q : Seq)
    (hl : lines' q s.dc s.rst) (hq : q.isInit = s.seq.isInit) (hz : q.pastZeroFill = true → s.seq.pastZeroFill = true)
    (i : Nat) (c : Fin 41) (e : Bool) :
    ({ s with seq := q, initIdx := i, chunk := c, werr := e } : State).Running lines' :=
  ⟨⟨h.base.memory.congr rfl rfl, h.base.lines, h.base.dirty, h.base.loadMap⟩, h.quiet, h.busy, by simp [h.drv, hq], hl,
    fun hp => h.zeroed (hz hp), h.response⟩

theorem rowRequest_withLines (s : State) (dc rst : Pin) (o : Option Request) :
    rowRequest { s with dc := dc, rst := rst, outstanding := o } = rowRequest s := rfl

/-- A row with a request puts the lines where the invariant has them while that request is outstanding. -/
theorem State.Running.lines_of_request {s : State} (h : s.Running rowLines) (r : Request) (hr : rowRequest s = some r) :
    (rowAction s).LinesOk := by
  have hl := h.levels
  cases hq : s.seq <;> rw [hq] at hl
  case idle => simp [rowRequest_idle s hq] at hr
  case exec => simp [rowRequest_exec s hq] at hr
  case initLines => simp [rowRequest_initLines s hq] at hr
  case initZero => simp [rowRequest_initZero s hq] at hr
  case initBus =>
    have hd := h.initializing (by rw [hq]; rfl)
    rw [rowAction_initBus s hq]; constructor <;> simp [hq, hd, hl.1, hl.2]
  case initRstHi =>
    have hd := h.initializing (by rw [hq]; rfl)
    rw [rowAction_initRstHi s hq]; constructor <;> simp [hq, hd, hl.1, hl.2]
  case initRstLo =>
    have hd := h.initializing (by rw [hq]; rfl)
    rw [rowAction_initRstLo s hq]; constructor <;> simp [hq, hd, show s.dc = .low from hl]
  case initRstRel =>
    have hd := h.initializing (by rw [hq]; rfl)
    rw [rowAction_initRstRel s hq]; constructor <;> simp [hq, hd, show s.dc = .low from hl]
  case initCmds =>
    have hd := h.initializing (by rw [hq]; rfl)
    cases he : s.params.initSeq[s.initIdx]? with
    | none => simp [rowRequest_initCmds_end s hq he] at hr
    | some e =>
      have hdc : dcLevel e.isData ≠ .z := by cases e.isData <;> decide
      rw [rowAction_initCmds s e hq he]; constructor <;> simp [hq, hd, hdc, hl.2]
  case refBlank =>
    obtain ⟨hd, -, hrst⟩ := h.ready (by rw [hq]; rfl)
    rw [rowAction_refBlank s hq]; constructor <;> simp [hq, hd, hrst, dcLevel]
  case refWindow =>
    obtain ⟨hd, -, hrst⟩ := h.ready (by rw [hq]; rfl)
    rw [rowAction_refWindow s hq]; constructor <;> simp [hq, hd, hrst]
  case refData =>
    obtain ⟨hd, -, hrst⟩ := h.ready (by rw [hq]; rfl)
    by_cases hk : s.chunk.val < 40
    · rw [rowAction_refData s hq hk]; constructor <;> simp [hq, hd, hrst]
    · simp [rowRequest_refData_end s hq hk] at hr
  case refUnblank =>
    obtain ⟨hd, -, hrst⟩ := h.ready (by rw [hq]; rfl)
    rw [rowAction_refUnblank s hq]; constructor <;> simp [hq, hd, hrst, dcLevel]

/-- A row with a request leaves a state of the invariant, waiting on that request. -/
theorem State.Running.inv_of_request {s : State} (h : s.Running rowLines) (r : Request) (hr : rowRequest s = some r) :
    (rowAction s).Inv := by
  have hl := h.lines_of_request r hr
  have hd := h.drv
  obtain ⟨dc, rst, ha⟩ := rowAction_of_request s r hr
  rw [ha] at hl ⊢
  have hidle : s.seq ≠ .idle := fun hq => by simp [rowRequest_idle s hq] at hr
  refine ⟨h.base.memory.congr rfl rfl, ⟨by simp [h.busy, hidle], by simp [h.busy], fun _ => ?_, ?_, ?_⟩, hl,
    ⟨h.zeroed, h.base.dirty, h.response, h.base.loadMap⟩⟩
  · rw [rowRequest_withLines, hr]; exact ⟨rfl, rfl⟩
  · cases hi : s.seq.isInit <;> simp [hd, hi]
  · intro hf
    cases hq : s.seq <;> simp [hq, Seq.isRefresh, Seq.isInit] at hf hd <;> exact hd

/-- A row without a request leads to the next row, or completes INIT. -/
theorem State.AtRow.silent {s : State} (h : s.AtRow) (hr : rowRequest s = none) :
    (rowAction s).AtRow ∨ (rowAction s).Completed := by
  obtain ⟨h, hrow⟩ := h
  have hl := h.levels
  obtain hq | hq | ⟨hq, he⟩ | ⟨hq, hk⟩ := silent_row_cases s hrow hr <;> rw [hq] at hl
  · have hd := h.initializing (by rw [hq]; rfl)
    rw [rowAction_initLines s hq]
    exact .inl ⟨⟨⟨h.base.memory.congr rfl rfl, drvLines_initializing hd, h.base.dirty, h.base.loadMap⟩, h.quiet, h.busy, hd,
      ⟨rfl, rfl⟩, nofun, h.response⟩, rfl⟩
  · have hd := h.initializing (by rw [hq]; rfl)
    have hz := fbInit_fb_eq_nil s h.base.memory.fb_below
    rw [rowAction_initZero s hq]
    exact .inl ⟨⟨⟨⟨hz ▸ Memory.wf_nil, hz ▸ List.forall_mem_nil _, h.base.memory.src_wf, h.base.memory.src_below⟩,
      drvLines_initializing hd, .inl ⟨rfl, rfl⟩, h.base.loadMap⟩, h.quiet, h.busy, hd, hl, fun _ => hz, h.response⟩, rfl⟩
  · have hd := h.initializing (by rw [hq]; rfl)
    rw [rowAction_initCmds_end s hq he]
    exact .inr (State.Base.completed_ok (s := { s with drv := .ready })
      ⟨h.base.memory.congr rfl rfl, hl, .inl (h.base.sentinel (by simp [hd])), h.base.loadMap⟩ h.quiet (by simp) _)
  · rw [rowAction_refData_end s hq hk]
    exact .inl ⟨h.move .refUnblank trivial (by rw [hq]; rfl) nofun _ _ _, rfl⟩

/-! ### Answers -/

/-- A waiting state of the invariant, its answer recorded, stands at its row with the lines the request was issued with. -/
theorem State.Inv.running_record {s : State} (h : s.Inv) (l : List Input) (answer : Request → Option Answer)
    (hb : s.busy = true) : (({ s with inputs := l } : State).record answer).Running issuedLines := by
  refine ⟨⟨h.memory.congr (by simp) (by simp), by simpa using h.base.lines, by simpa using h.base.dirty,
    by simpa using h.base.loadMap⟩, by simp, by simpa using hb, ?_, ?_, by simpa using h.values.zeroed,
    by simpa using h.values.response⟩
  · simp only [record_drv, record_seq]
    rcases h.running hb with ⟨hd, hi⟩ | ⟨hd, hf⟩
    · rw [hd, if_pos hi]
    · have hi : s.seq.isInit = false := by cases hq : s.seq <;> simp [hq, Seq.isRefresh] at hf <;> rfl
      rw [hd, hi]
      rfl
  · simp only [record_dc, record_rst, record_seq]
    cases hq : s.seq
    case initBus => exact h.lines.undriven (.inr hq)
    case initRstHi => exact h.lines.pulseHigh (.inl hq)
    case initRstLo => exact h.lines.pulseLow hq
    case initRstRel => exact h.lines.pulseHigh (.inr hq)
    case initCmds => exact h.lines.driven (.inr hq)
    all_goals trivial

/-- What an answer makes of a row: the next row is to be done, or the command has completed. -/
theorem State.Running.of_rowAnswered {s : State} (h : s.Running issuedLines) (b : Bool) (hr : (rowRequest s).isSome = true) :
    (rowAnswered b s).AtRow ∨ (rowAnswered b s).Completed := by
  have hl := h.levels
  cases hq : s.seq <;> rw [hq] at hl
  case idle => simp [rowRequest_idle s hq] at hr
  case exec => simp [rowRequest_exec s hq] at hr
  case initLines => simp [rowRequest_initLines s hq] at hr
  case initZero => simp [rowRequest_initZero s hq] at hr
  case initBus =>
    have hd := h.initializing (by rw [hq]; rfl)
    rw [rowAnswered_initBus s b hq]
    cases b with
    | true => exact .inl ⟨h.move .initLines trivial (by rw [hq]; rfl) nofun _ _ _, rfl⟩
    | false => exact .inr (h.base.completed_initFails h.quiet (by simp [hd]) (.inl hl) _)
  case initRstHi =>
    rw [rowAnswered_initRstHi s b hq]
    exact .inl ⟨h.move .initRstLo hl.1 (by rw [hq]; rfl) (by simp [hq, Seq.pastZeroFill]) _ _ _, rfl⟩
  case initRstLo =>
    rw [rowAnswered_initRstLo s b hq]
    exact .inl ⟨h.move .initRstRel hl.1 (by rw [hq]; rfl) (by simp [hq, Seq.pastZeroFill]) _ _ _, rfl⟩
  case initRstRel =>
    rw [rowAnswered_initRstRel s b hq]
    exact .inl ⟨h.move .initCmds ⟨by simp [hl.1], hl.2⟩ (by rw [hq]; rfl) (by simp [hq, Seq.pastZeroFill]) _ _ _,
      by simp [hasRow, State.goto]⟩
  case initCmds =>
    have hd := h.initializing (by rw [hq]; rfl)
    rw [rowAnswered_initCmds s b hq]
    cases b with
    | true =>
      have hn : s.initIdx < s.params.initSeq.length := by simpa [rowRequest, hq] using hr
      exact .inl ⟨h.move s.seq (by rw [hq]; exact hl) rfl id _ _ _, by simpa [hasRow, hq] using hn⟩
    | false => exact .inr (h.base.completed_initFails h.quiet (by simp [hd]) (.inr hl) _)
  case refBlank =>
    rw [rowAnswered_refBlank s b hq]
    exact .inl ⟨h.move .refWindow trivial (by rw [hq]; rfl) nofun _ _ _, rfl⟩
  case refWindow =>
    rw [rowAnswered_refWindow s b hq]
    exact .inl ⟨h.move .refData trivial (by rw [hq]; rfl) nofun _ _ _, rfl⟩
  case refData =>
    rw [rowAnswered_refData s b hq, nextChunk_eq]
    exact .inl ⟨h.move s.seq (by rw [hq]; trivial) rfl id _ _ _, by simp [hasRow, hq]⟩
  case refUnblank =>
    obtain ⟨hd, -⟩ := h.ready (by rw [hq]; rfl)
    rw [rowAnswered_refUnblank s b hq]
    exact .inr (State.Base.completed_complete (s := noteFailure b s)
      ⟨h.base.memory.congr rfl rfl, h.base.lines, h.base.dirty, h.base.loadMap⟩ h.quiet (by simp [hd]) _ _ fun _ => rfl)

/-- The answer to a waiting command leads to its next row or completes it. -/
theorem State.Inv.of_answered {s : State} (h : s.Inv) (b : Bool) (l : List Input) (ho : s.outstanding.isSome = true) :
    (answered b { s with inputs := l }).AtRow ∨ (answered b { s with inputs := l }).Completed := by
  have hb : s.busy = true := by
    cases hb : s.busy with
    | false => rw [h.control.idle_quiet hb] at ho; cases ho
    | true => rfl
  refine (h.running_record l _ hb).of_rowAnswered b ?_
  obtain ⟨r, hr⟩ := Option.isSome_iff_exists.1 ho
  simp only [State.record, hr]
  exact (h.control.waiting hb).1

/-! ### Runs, commands and steps -/

/-- A run from a row ends in a state of the invariant. -/
theorem inv_runSequencer (s : State) (h : s.AtRow) : (runSequencer s).Inv := by
  refine runSequencer_by_rows (fun t => t.AtRow ∨ t.Completed) State.Inv ?_ ?_ ?_ ?_ ?_ s (.inl h)
  · rintro t (ht | ht)
    · exact ht.1.quiet
    · exact ht.quiet
  · rintro t (ht | ht) hrow
    · rw [ht.2] at hrow; cases hrow
    · exact ht.1
  · rintro t r (ht | ht) hr
    · exact ht.1.inv_of_request r hr
    · rw [rowRequest_idle t ht.2] at hr; cases hr
  · rintro t (ht | ht) hrow hr
    · exact ht.silent hr
    · rw [hasRow_idle t ht.2] at hrow; cases hrow
  · exact fun t b l ht ho => ht.of_answered b l ho

/-- A command leaves a state of the invariant when it runs from a state that meets what does not depend on SEQ. -/
theorem inv_of_commandEffect {s t : State} {i : Instr} (he : CommandEffect s i t) (h : s.Base) (ho : s.outstanding = none)
    (hd : s.drv ≠ .initializing) (hr : s.rspStatus ≠ .ok → s.rspData = 0x00#8) : t.Inv := by
  have hfb : ∀ m : Memory, m.wf → m.below Config.fbSize → ({ s with fb := m } : State).Base := fun m hw hb =>
    ⟨⟨hw, hb, h.memory.src_wf, h.memory.src_below⟩, h.lines, h.dirty, h.loadMap⟩
  have hz : ∀ lo hi : Nat, (s.zeroFb lo hi).Base := fun lo hi =>
    hfb _ (Memory.wf_zeroRange lo hi h.memory.fb_wf) (Memory.below_zeroRange lo hi h.memory.fb_below)
  cases he with
  | notNow i hi hn => exact (h.completed_raise ho hd _).1
  | badOperand i e hi hq hv => exact (h.completed_raise ho hd e).1
  | init hu =>
    have hl := h.lines
    rw [hu] at hl
    exact inv_runSequencer _ ⟨⟨⟨h.memory.congr rfl rfl, trivial, .inl (h.sentinel (by simp [hu])), h.loadMap⟩, ho, rfl, rfl,
      hl, nofun, hr⟩, rfl⟩
  | clear rs re hq => exact ((hz _ _).completed_ok ho hd _).1
  | blank hq => exact ((hz _ _).completed_ok ho hd _).1
  | setPixel x y p hq hxy =>
    refine ((hfb _ (Memory.wf_write _ _ h.memory.fb_wf) (Memory.below_write h.memory.fb_below ?_)).completed_ok ho hd _).1
    simp only [pixAddr, Config.fbSize]
    omega
  | loadImage hq =>
    exact (State.Base.completed_ok (s := { s with fb := _, dirtyMin := _, dirtyMax := _ })
      ⟨⟨Memory.wf_ofFn _ _ _, by simpa using Memory.below_ofFn (imageByte s) 20480 0, h.memory.src_wf, h.memory.src_below⟩,
        h.lines, .inr ⟨hq, rfl, rfl⟩, h.loadMap⟩ ho hd _).1
  | refresh b hq =>
    exact inv_runSequencer _ ⟨⟨⟨h.memory.congr rfl rfl, h.lines, h.dirty, h.loadMap⟩, ho, rfl, by cases b <;> exact hq,
      by cases b <;> trivial, by cases b <;> nofun, hr⟩, by cases b <;> rfl⟩
  | halt => exact (h.completed_ok ho hd _).1
  | readByte addr hq => exact (h.completed_ok ho hd _).1
  | getPixel x y hq => exact (h.completed_ok ho hd _).1

/-- A move of the outside world touches nothing the invariant speaks of but SRC. -/
theorem State.Inv.outside {s : State} (h : s.Inv) (o : Option Word) (m : Memory) (l : List Input) (hw : m.wf)
    (hb : m.below Config.srcSpace) : ({ s with offered := o, src := m, inputs := l } : State).Inv := by
  obtain ⟨hm, ⟨h1, h2, h3, h4, h5⟩, ⟨h6, h7, h8, h9, h10⟩, ⟨h11, h12, h13, h14⟩⟩ := h
  exact ⟨⟨hm.fb_wf, hm.fb_below, hw, hb⟩, ⟨h1, h2, h3, h4, h5⟩, ⟨h6, h7, h8, h9, h10⟩, ⟨h11, h12, h13, h14⟩⟩

/-- A block reset gives a state of the invariant. -/
theorem inv_blockReset {s : State} (hw : s.src.wf) (hb : s.src.below Config.srcSpace) (hp : s.params.loadMap.bijective) :
    (blockReset s).Inv :=
  State.Base.inv_of_idle ⟨⟨Memory.wf_nil, List.forall_mem_nil _, hw, hb⟩, ⟨rfl, rfl⟩, .inl ⟨rfl, rfl⟩, hp⟩ rfl rfl rfl nofun
    fun _ => rfl

/-- An idle block's state right after it accepted a word. -/
theorem State.Inv.accepted {s : State} (h : s.Inv) (w : Word) (hb : s.busy = false) :
    (acceptWord w s).Base ∧ (acceptWord w s).outstanding = none ∧ (acceptWord w s).drv ≠ .initializing :=
  ⟨⟨h.memory.congr rfl rfl, h.base.lines, h.base.dirty, h.base.loadMap⟩, h.control.idle_quiet hb, h.not_initializing hb⟩

/-- Settles O48: the reset state is the block reset of itself. -/
theorem resetMeetsTheInvariant : Obligations.ResetMeetsTheInvariant :=
  inv_blockReset (s := State.reset) Memory.wf_nil (List.forall_mem_nil _) (by decide)

/-- Settles O49, by cases on what the step does: a reset, a move of the outside world, an accepted word, or an answer. -/
theorem stepKeepsTheInvariant : Obligations.StepKeepsTheInvariant := by
  intro s t h hs
  cases step_effect s t h.control hs with
  | reset l hi => exact inv_blockReset h.memory.src_wf h.memory.src_below h.values.loadMap
  | outside o m l hr hq hm =>
    obtain rfl | ⟨a, v, rfl⟩ := hm
    · exact h.outside o _ l h.memory.src_wf h.memory.src_below
    · exact h.outside o _ l (Memory.wf_write _ _ h.memory.src_wf) (Memory.below_write h.memory.src_below a.isLt)
  | illegal w why hr hb ho hd =>
    obtain ⟨hbase, hquiet, hdrv⟩ := h.accepted w hb
    exact (hbase.completed_raise hquiet hdrv _).1
  | command w i t hr hb ho hd he =>
    obtain ⟨hbase, hquiet, hdrv⟩ := h.accepted w hb
    exact inv_of_commandEffect he hbase hquiet hdrv h.values.response
  | answer b l hi hb ho =>
    rcases h.of_answered b l ho with hrow | hdone
    · exact inv_runSequencer _ hrow
    · rw [runSequencer_idle _ hdone.quiet hdone.2]
      exact hdone.1

end Sys2Proof.Machine
end

section
/-! ## What the spec leaves unspecified is never observable

`Agree s t` says that t is s with other values in the fields the spec leaves unspecified, each only where it cannot be observed. Every
operation of a step keeps two such states in agreement. -/

namespace Sys2Proof.Machine

/-- The fields that have no specified value somewhere: CMD, INIT_IDX, CHUNK, WERR and FB (10_state.md R23, R25, R29). -/
structure Unseen where
  cmd     : Word
  initIdx : Nat
  chunk   : Fin 41
  werr    : Bool
  fb      : Memory

/-- The state with these values in the fields that have no specified value somewhere. -/
def State.withUnseen (u : Unseen) (s : State) : State :=
  { s with cmd := u.cmd, initIdx := u.initIdx, chunk := u.chunk, werr := u.werr, fb := u.fb }

/-- The values differ from those of s only where s does not show them; every framebuffer lies in its space. -/
structure State.Hides (s : State) (u : Unseen) : Prop where
  cmd     : s.busy = true → u.cmd = s.cmd
  initIdx : s.seq = .initCmds → u.initIdx = s.initIdx
  chunk   : s.seq = .refData → u.chunk = s.chunk
  werr    : s.seq.isRefresh = true → u.werr = s.werr
  fb      : s.fbLive = true → u.fb = s.fb
  below   : s.fb.below Config.fbSize ∧ u.fb.below Config.fbSize

/-- The two states differ only in what cannot be observed. -/
def Agree (s t : State) : Prop := ∃ u, s.Hides u ∧ t = s.withUnseen u

/-- Two outcomes that differ only in what cannot be observed. -/
inductive OutcomesAgree : Host.Outcome State Fault Refusal → Host.Outcome State Fault Refusal → Prop where
  | next {s t : State} (h : Agree s t) : OutcomesAgree (.next s) (.next t)
  | fault (r : Fault) : OutcomesAgree (.fault r) (.fault r)
  | refused (r : Refusal) : OutcomesAgree (.refused r) (.refused r)

/-! ### Agreement and `State.observable` -/

theorem Agree.observable_eq {s t : State} (h : Agree s t) : s.observable = t.observable := by
  obtain ⟨u, h, rfl⟩ := h
  have hcmd : (if s.busy then s.cmd else 0#32) = if s.busy then u.cmd else 0#32 := by
    split
    next hb => exact (h.cmd hb).symm
    next => rfl
  have hidx : (if s.seq = .initCmds then s.initIdx else 0) = if s.seq = .initCmds then u.initIdx else 0 := by
    split
    next hq => exact (h.initIdx hq).symm
    next => rfl
  have hchunk : (if s.seq = .refData then s.chunk else 0) = if s.seq = .refData then u.chunk else 0 := by
    split
    next hq => exact (h.chunk hq).symm
    next => rfl
  have hwerr : (if s.seq.isRefresh then s.werr else false) = if s.seq.isRefresh then u.werr else false := by
    split
    next hq => exact (h.werr hq).symm
    next => rfl
  have hfb : (if s.fbLive then s.fb else []) = if s.fbLive then u.fb else [] := by
    split
    next hl => exact (h.fb hl).symm
    next => rfl
  unfold State.observable
  rw [hcmd, hidx, hchunk, hwerr, hfb]
  rfl

theorem agree_of_observable_eq {s t : State} (hs : s.fb.below Config.fbSize) (ht : t.fb.below Config.fbSize)
    (h : s.observable = t.observable) : Agree s t := by
  obtain ⟨drv, busy, cmd, rspStatus, rspData, fb, dirtyMin, dirtyMax, dc, rst, seq, initIdx, chunk, werr, offered, outstanding,
    src, inputs, params, trace, responses⟩ := t
  simp only [State.observable, State.mk.injEq] at h
  obtain ⟨rfl, rfl, hcmd, rfl, rfl, hfb, rfl, rfl, rfl, rfl, rfl, hidx, hchunk, hwerr, rfl, rfl, rfl, rfl, rfl, rfl, rfl⟩ := h
  refine ⟨⟨cmd, initIdx, chunk, werr, fb⟩, ⟨fun hb => ?_, fun hq => ?_, fun hq => ?_, fun hq => ?_, fun hl => ?_, hs, ht⟩, rfl⟩
  · simpa [hb] using hcmd.symm
  · simpa [hq] using hidx.symm
  · simpa [hq] using hchunk.symm
  · simpa [hq] using hwerr.symm
  · rw [if_pos hl] at hfb
    exact (hfb.trans (if_pos hl)).symm

theorem OutcomesAgree.observable_eq {o p : Host.Outcome State Fault Refusal} (h : OutcomesAgree o p) :
    observableOutcome o = observableOutcome p := by
  cases h with
  | next h => simp only [observableOutcome, h.observable_eq]
  | fault r => rfl
  | refused r => rfl

/-! ### Hiding, from state to state -/

/-- What is hidden stays hidden when the same fields are kept and none comes to be shown. -/
theorem State.Hides.mono {s t : State} {u : Unseen} (h : s.Hides u) (hcmd : t.cmd = s.cmd) (hidx : t.initIdx = s.initIdx)
    (hchunk : t.chunk = s.chunk) (hwerr : t.werr = s.werr) (hfb : t.fb = s.fb) (hb : t.busy = true → s.busy = true)
    (hi : t.seq = .initCmds → s.seq = .initCmds) (hk : t.seq = .refData → s.seq = .refData)
    (hr : t.seq.isRefresh = true → s.seq.isRefresh = true) (hl : t.fbLive = true → s.fbLive = true) : t.Hides u :=
  ⟨fun x => (h.cmd (hb x)).trans hcmd.symm, fun x => (h.initIdx (hi x)).trans hidx.symm,
    fun x => (h.chunk (hk x)).trans hchunk.symm, fun x => (h.werr (hr x)).trans hwerr.symm,
    fun x => (h.fb (hl x)).trans hfb.symm, hfb ▸ h.below.1, h.below.2⟩

/-- Writes of the lines, the ports, SRC, the inputs and the record hide and show nothing. -/
theorem State.Hides.visible {s : State} {u : Unseen} (h : s.Hides u) (dc rst : Pin) (o : Option Word) (r : Option Request)
    (m : Memory) (l : List Input) (tr : List Event) :
    ({ s with dc := dc, rst := rst, offered := o, outstanding := r, src := m, inputs := l, trace := tr } : State).Hides u :=
  h.mono rfl rfl rfl rfl rfl id id id id id

/-- SEQ moves to a row that shows no counter, and FB or WERR only if they were shown before. -/
theorem State.Hides.goto {s : State} {u : Unseen} (h : s.Hides u) (q : Seq) (hi : q ≠ .initCmds) (hk : q ≠ .refData)
    (hr : q.isRefresh = true → s.seq.isRefresh = true) (hz : q.pastZeroFill = true → s.seq.pastZeroFill = true) :
    (s.goto q).Hides u := by
  refine h.mono rfl rfl rfl rfl rfl id (fun x => absurd x hi) (fun x => absurd x hk) hr fun hl => ?_
  simp only [State.fbLive, State.goto, Bool.or_eq_true] at hl ⊢
  exact hl.imp (Or.imp_right hz) hr

/-- A completed command shows FB in READY only, and nothing else that can be unspecified. -/
theorem agree_complete (st : Status) (d : Byte) (s : State) (u : Unseen) (hfb : s.drv = .ready → u.fb = s.fb)
    (hb : s.fb.below Config.fbSize ∧ u.fb.below Config.fbSize) :
    Agree (complete st d s) (complete st d (s.withUnseen u)) :=
  ⟨u, ⟨nofun, nofun, nofun, nofun, fun hl => hfb (by simpa [State.fbLive, Seq.pastZeroFill, Seq.isRefresh] using hl), hb⟩, rfl⟩

theorem State.Hides.fb_of_ready {s : State} {u : Unseen} (h : s.Hides u) (hd : s.drv = .ready) : u.fb = s.fb :=
  h.fb (by simp [State.fbLive, hd])

theorem State.Hides.fb_of_refresh {s : State} {u : Unseen} (h : s.Hides u) (hq : s.seq.isRefresh = true) : u.fb = s.fb :=
  h.fb (by simp [State.fbLive, hq])

theorem State.Hides.fb_of_pastZeroFill {s : State} {u : Unseen} (h : s.Hides u) (hq : s.seq.pastZeroFill = true) :
    u.fb = s.fb := h.fb (by simp [State.fbLive, hq])

/-! ### The rows -/

theorem hasRow_withUnseen {s : State} {u : Unseen} (h : s.Hides u) : hasRow (s.withUnseen u) = hasRow s := by
  cases hq : s.seq <;> simp only [hasRow, State.withUnseen, hq]
  rw [h.initIdx hq]

theorem rowRequest_withUnseen {s : State} {u : Unseen} (h : s.Hides u) : rowRequest (s.withUnseen u) = rowRequest s := by
  cases hq : s.seq <;> simp only [rowRequest, State.withUnseen, hq]
  · rw [h.initIdx hq]
  · rw [h.chunk hq, h.fb_of_refresh (by rw [hq]; rfl)]
    rfl

theorem agree_rowAction {s : State} {u : Unseen} (h : s.Hides u) : Agree (rowAction s) (rowAction (s.withUnseen u)) := by
  cases hq : s.seq
  case idle => exact ⟨u, by simpa [rowAction, hq] using h, by simp [rowAction, State.withUnseen, hq]⟩
  case exec => exact ⟨u, by simpa [rowAction, hq] using h, by simp [rowAction, State.withUnseen, hq]⟩
  case initBus =>
    rw [rowAction_initBus s hq, rowAction_initBus (s.withUnseen u) hq]
    exact ⟨u, h.visible _ _ _ _ _ _ _, rfl⟩
  case initLines =>
    rw [rowAction_initLines s hq, rowAction_initLines (s.withUnseen u) hq]
    exact ⟨u, (h.visible .low .high _ _ _ _ _).goto .initZero nofun nofun nofun nofun, rfl⟩
  case initZero =>
    rw [rowAction_initZero s hq, rowAction_initZero (s.withUnseen u) hq]
    have hz : (fbInit s).fb = [] := fbInit_fb_eq_nil s h.below.1
    have hz' : (fbInit (s.withUnseen u)).fb = [] := fbInit_fb_eq_nil (s.withUnseen u) h.below.2
    refine ⟨{ u with fb := (fbInit (s.withUnseen u)).fb }, ⟨h.cmd, nofun, nofun, nofun, fun _ => hz'.trans hz.symm, ?_, ?_⟩, rfl⟩
    · exact hz ▸ List.forall_mem_nil _
    · exact hz' ▸ List.forall_mem_nil _
  case initRstHi =>
    rw [rowAction_initRstHi s hq, rowAction_initRstHi (s.withUnseen u) hq]
    exact ⟨u, h.visible _ _ _ _ _ _ _, rfl⟩
  case initRstLo =>
    rw [rowAction_initRstLo s hq, rowAction_initRstLo (s.withUnseen u) hq]
    exact ⟨u, h.visible _ _ _ _ _ _ _, rfl⟩
  case initRstRel =>
    rw [rowAction_initRstRel s hq, rowAction_initRstRel (s.withUnseen u) hq]
    exact ⟨u, h.visible _ _ _ _ _ _ _, rfl⟩
  case initCmds =>
    have hidx : (s.withUnseen u).params.initSeq[(s.withUnseen u).initIdx]? = s.params.initSeq[s.initIdx]? :=
      congrArg (s.params.initSeq[·]?) (h.initIdx hq)
    cases he : s.params.initSeq[s.initIdx]? with
    | some e =>
      rw [rowAction_initCmds s e hq he, rowAction_initCmds (s.withUnseen u) e hq (hidx.trans he)]
      exact ⟨u, h.visible _ _ _ _ _ _ _, rfl⟩
    | none =>
      rw [rowAction_initCmds_end s hq he, rowAction_initCmds_end (s.withUnseen u) hq (hidx.trans he)]
      exact agree_complete .ok _ { s with drv := .ready } u (fun _ => h.fb_of_pastZeroFill (by rw [hq]; rfl)) h.below
  case refBlank =>
    rw [rowAction_refBlank s hq, rowAction_refBlank (s.withUnseen u) hq]
    exact ⟨u, h.visible _ _ _ _ _ _ _, rfl⟩
  case refWindow =>
    rw [rowAction_refWindow s hq, rowAction_refWindow (s.withUnseen u) hq]
    exact ⟨u, h.visible _ _ _ _ _ _ _, rfl⟩
  case refData =>
    have hc : (s.withUnseen u).chunk = s.chunk := h.chunk hq
    have hp : ∀ k, chunkPayload (s.withUnseen u) k = chunkPayload s k := fun k =>
      congrArg (fun m => Memory.slice m _ _) (h.fb_of_refresh (by rw [hq]; rfl))
    by_cases hk : s.chunk.val < 40
    · rw [rowAction_refData s hq hk, rowAction_refData (s.withUnseen u) hq (by rw [hc]; exact hk), hc, hp]
      exact ⟨u, h.visible _ _ _ _ _ _ _, rfl⟩
    · rw [rowAction_refData_end s hq hk, rowAction_refData_end (s.withUnseen u) hq (by rw [hc]; exact hk)]
      exact ⟨u, h.goto .refUnblank nofun nofun (fun _ => by rw [hq]; rfl) nofun, rfl⟩
  case refUnblank =>
    rw [rowAction_refUnblank s hq, rowAction_refUnblank (s.withUnseen u) hq]
    exact ⟨u, h.visible _ _ _ _ _ _ _, rfl⟩

/-- A failed answer is noted alike on both sides while WERR is shown. -/
theorem State.Hides.of_noteFailure {s : State} {u : Unseen} (h : s.Hides u) (b : Bool) :
    (noteFailure b s).Hides { u with werr := u.werr || !b } :=
  ⟨h.cmd, h.initIdx, h.chunk, fun hq => congrArg (· || !b) (h.werr hq), h.fb, h.below⟩

theorem agree_rowAnswered {s : State} {u : Unseen} (h : s.Hides u) (b : Bool) :
    Agree (rowAnswered b s) (rowAnswered b (s.withUnseen u)) := by
  cases hq : s.seq
  case idle => exact ⟨u, by simpa [rowAnswered, hq] using h, by simp [rowAnswered, State.withUnseen, hq]⟩
  case exec => exact ⟨u, by simpa [rowAnswered, hq] using h, by simp [rowAnswered, State.withUnseen, hq]⟩
  case initLines => exact ⟨u, by simpa [rowAnswered, hq] using h, by simp [rowAnswered, State.withUnseen, hq]⟩
  case initZero => exact ⟨u, by simpa [rowAnswered, hq] using h, by simp [rowAnswered, State.withUnseen, hq]⟩
  case initBus =>
    rw [rowAnswered_initBus s b hq, rowAnswered_initBus (s.withUnseen u) b hq]
    cases b with
    | true => exact ⟨u, h.goto .initLines nofun nofun nofun nofun, rfl⟩
    | false => exact agree_complete _ _ { s with drv := .failed } u nofun h.below
  case initRstHi =>
    rw [rowAnswered_initRstHi s b hq, rowAnswered_initRstHi (s.withUnseen u) b hq]
    exact ⟨u, h.goto .initRstLo nofun nofun nofun fun _ => by rw [hq]; rfl, rfl⟩
  case initRstLo =>
    rw [rowAnswered_initRstLo s b hq, rowAnswered_initRstLo (s.withUnseen u) b hq]
    exact ⟨u, h.goto .initRstRel nofun nofun nofun fun _ => by rw [hq]; rfl, rfl⟩
  case initRstRel =>
    rw [rowAnswered_initRstRel s b hq, rowAnswered_initRstRel (s.withUnseen u) b hq]
    exact ⟨{ u with initIdx := 0 }, ⟨h.cmd, fun _ => rfl, nofun, nofun, fun _ => h.fb_of_pastZeroFill (by rw [hq]; rfl),
      h.below⟩, rfl⟩
  case initCmds =>
    rw [rowAnswered_initCmds s b hq, rowAnswered_initCmds (s.withUnseen u) b hq]
    cases b with
    | true =>
      exact ⟨{ u with initIdx := u.initIdx + 1 }, ⟨h.cmd, fun hq => congrArg (· + 1) (h.initIdx hq), h.chunk, h.werr, h.fb,
        h.below⟩, rfl⟩
    | false => exact agree_complete _ _ { s with drv := .failed } u nofun h.below
  case refBlank =>
    rw [rowAnswered_refBlank s b hq, rowAnswered_refBlank (s.withUnseen u) b hq]
    exact ⟨_, (h.of_noteFailure b).goto .refWindow nofun nofun (fun _ => by rw [noteFailure_seq, hq]; rfl) nofun, rfl⟩
  case refWindow =>
    rw [rowAnswered_refWindow s b hq, rowAnswered_refWindow (s.withUnseen u) b hq]
    have hf : s.seq.isRefresh = true := by rw [hq]; rfl
    exact ⟨{ u with chunk := 0, werr := u.werr || !b }, ⟨h.cmd, nofun, fun _ => rfl, fun _ => (h.of_noteFailure b).werr hf,
      fun _ => h.fb_of_refresh hf, h.below⟩, rfl⟩
  case refData =>
    rw [rowAnswered_refData s b hq, rowAnswered_refData (s.withUnseen u) b hq, nextChunk_eq (noteFailure b s),
      nextChunk_eq (noteFailure b (s.withUnseen u))]
    exact ⟨{ u with chunk := (nextChunk (noteFailure b (s.withUnseen u))).chunk, werr := u.werr || !b },
      ⟨h.cmd, h.initIdx, fun _ => nextChunk_chunk_congr (h.chunk hq), (h.of_noteFailure b).werr, h.fb, h.below⟩, rfl⟩
  case refUnblank =>
    rw [rowAnswered_refUnblank s b hq, rowAnswered_refUnblank (s.withUnseen u) b hq]
    have hf : s.seq.isRefresh = true := by rw [hq]; rfl
    have hw : (noteFailure b (s.withUnseen u)).werr = (noteFailure b s).werr := (h.of_noteFailure b).werr hf
    rw [hw]
    exact agree_complete _ _ (noteFailure b s) { u with werr := u.werr || !b } (fun _ => h.fb_of_refresh hf) h.below

/-! ### Runs -/

theorem record_withUnseen (answer : Request → Option Answer) (s : State) (u : Unseen) :
    (s.withUnseen u).record answer = (s.record answer).withUnseen u := by
  cases ho : s.outstanding <;> simp [State.record, State.withUnseen, ho]

theorem agree_answered {s : State} {u : Unseen} (h : s.Hides u) (b : Bool) :
    Agree (answered b s) (answered b (s.withUnseen u)) := by
  unfold answered
  rw [record_withUnseen]
  exact agree_rowAnswered (h.mono (by simp) (by simp) (by simp) (by simp) (by simp) (by simp) (by simp) (by simp) (by simp)
    (by simp [State.fbLive])) b

theorem agree_settle : ∀ (n : Nat) {s t : State}, Agree s t → Agree (settle n s) (settle n t)
  | 0, _, _, h => h
  | n + 1, s, _, ⟨u, h, rfl⟩ => by
    have hc : ((s.withUnseen u).outstanding.isNone && hasRow (s.withUnseen u)) = (s.outstanding.isNone && hasRow s) := by
      rw [hasRow_withUnseen h]
      rfl
    unfold settle
    rw [hc]
    split
    · exact agree_settle n (agree_rowAction h)
    · exact ⟨u, h, rfl⟩

theorem agree_consume : ∀ (l : List Input) {s t : State}, Agree s t → Agree (consume l s) (consume l t)
  | [], _, _, h => h
  | .txDone b :: l, s, _, ⟨u, h, rfl⟩ => by
    cases ho : s.outstanding with
    | none => rw [consume_none _ s ho, consume_none _ (s.withUnseen u) ho]; exact ⟨u, h, rfl⟩
    | some r =>
      have hs : s.outstanding.isSome = true := by rw [ho]; rfl
      rw [consume_txDone b l s hs, consume_txDone b l (s.withUnseen u) hs]
      exact agree_consume l (agree_settle 3 (agree_answered (h.visible _ _ _ _ _ l _) b))
  | .offer _ :: _, _, _, h => h
  | .srcWrite _ _ :: _, _, _, h => h
  | .reset :: _, _, _, h => h
  | .pass :: _, _, _, h => h

theorem agree_runSequencer {s t : State} (h : Agree s t) : Agree (runSequencer s) (runSequencer t) := by
  have hi : s.inputs = t.inputs := by
    obtain ⟨u, -, rfl⟩ := h
    rfl
  unfold runSequencer
  simp only [settle_inputs, hi]
  exact agree_consume _ (agree_settle 3 h)

/-! ### Commands and steps -/

/-- The command's rule may read FB in READY only. -/
theorem outcomesAgree_requireReady (s : State) (u : Unseen) (rule : State → State) (hfb : s.drv = .ready → u.fb = s.fb)
    (hb : s.fb.below Config.fbSize ∧ u.fb.below Config.fbSize)
    (hrule : s.drv = .ready → Agree (rule s) (rule (s.withUnseen u))) :
    OutcomesAgree (requireReady s rule) (requireReady (s.withUnseen u) rule) := by
  by_cases hd : s.drv = .ready
  · rw [requireReady_of_ready s rule hd, requireReady_of_ready (s.withUnseen u) rule hd]
    exact .next (hrule hd)
  · rw [requireReady_of_not_ready s rule hd, requireReady_of_not_ready (s.withUnseen u) rule hd]
    exact .next (agree_complete _ _ s u hfb hb)

/-- A rule that completes with the same FB on both sides. -/
theorem agree_ok_of_fb (d : Byte) (s : State) (u : Unseen) (m : Memory) (dmin dmax : BitVec 16) (hm : m.below Config.fbSize) :
    Agree (ok d { s with fb := m, dirtyMin := dmin, dirtyMax := dmax })
      (ok d { s.withUnseen u with fb := m, dirtyMin := dmin, dirtyMax := dmax }) :=
  agree_complete .ok d { s with fb := m, dirtyMin := dmin, dirtyMax := dmax } { u with fb := m } (fun _ => rfl) ⟨hm, hm⟩

/-- A command reads CMD, INIT_IDX, CHUNK and WERR nowhere before it writes them, and FB in READY only. -/
theorem outcomesAgree_exec (i : Instr) (s : State) (u : Unseen) (hcmd : u.cmd = s.cmd) (hfb : s.drv = .ready → u.fb = s.fb)
    (hb : s.fb.below Config.fbSize ∧ u.fb.below Config.fbSize) :
    OutcomesAgree (exec i s) (exec i (s.withUnseen u)) := by
  have hraise : ∀ e, Agree (raise e s) (raise e (s.withUnseen u)) := fun e => agree_complete e _ s u hfb hb
  have hok : ∀ d, Agree (ok d s) (ok d (s.withUnseen u)) := fun d => agree_complete .ok d s u hfb hb
  have hread : s.drv = .ready → (s.withUnseen u).fb = s.fb := hfb
  cases i with
  | init =>
    by_cases hd : s.drv = .uninit
    · rw [show exec .init s = _ from if_pos hd, show exec .init (s.withUnseen u) = _ from if_pos hd]
      exact .next (agree_runSequencer ⟨u, ⟨fun _ => hcmd, nofun, nofun, nofun, nofun, hb⟩, rfl⟩)
    · rw [show exec .init s = _ from if_neg hd, show exec .init (s.withUnseen u) = _ from if_neg hd]
      exact .next (hraise _)
  | clear rs re =>
    simp only [exec, execClear]
    refine outcomesAgree_requireReady s u _ hfb hb fun hd => ?_
    split
    · simp only [State.zeroFb, hread hd]
      exact agree_ok_of_fb _ s u _ _ _ (Memory.below_zeroRange _ _ hb.1)
    · exact hraise _
  | blank =>
    simp only [exec, execBlank]
    refine outcomesAgree_requireReady s u _ hfb hb fun hd => ?_
    simp only [State.zeroFb, hread hd]
    exact agree_ok_of_fb _ s u _ _ _ (Memory.below_zeroRange _ _ hb.1)
  | setPixel x y p =>
    simp only [exec, execSetPixel]
    refine outcomesAgree_requireReady s u _ hfb hb fun hd => ?_
    split
    next hxy =>
      split
      · have hxy := (inPanel_iff x y).1 hxy
        rw [hread hd]
        refine agree_ok_of_fb _ s u _ _ _ (Memory.below_write hb.1 ?_)
        simp only [pixAddr, Config.fbSize]
        omega
      · exact hraise _
    next => exact hraise _
  | loadImage len =>
    simp only [exec, execLoadImage]
    refine outcomesAgree_requireReady s u _ hfb hb fun hd => ?_
    split
    · exact agree_ok_of_fb _ s u _ _ _ (by simpa using Memory.below_ofFn (imageByte s) 20480 0)
    · exact hraise _
  | refresh b =>
    simp only [exec, execRefresh]
    refine outcomesAgree_requireReady s u _ hfb hb fun hd => ?_
    refine agree_runSequencer ⟨{ u with werr := false }, ⟨fun _ => hcmd, ?_, ?_, fun _ => rfl, fun _ => hfb hd, hb⟩, rfl⟩ <;>
      cases b <;> nofun
  | halt => exact .next (hok _)
  | readByte addr =>
    simp only [exec, execReadByte]
    refine outcomesAgree_requireReady s u _ hfb hb fun hd => ?_
    split
    · rw [hread hd]; exact hok _
    · exact hraise _
  | getPixel x y =>
    simp only [exec, execGetPixel]
    refine outcomesAgree_requireReady s u _ hfb hb fun hd => ?_
    split
    · rw [hread hd]; exact hok _
    · exact hraise _

theorem outcomesAgree_runCommand (s : State) (u : Unseen) (hcmd : u.cmd = s.cmd) (hfb : s.drv = .ready → u.fb = s.fb)
    (hb : s.fb.below Config.fbSize ∧ u.fb.below Config.fbSize) :
    OutcomesAgree (runCommand s) (runCommand (s.withUnseen u)) := by
  have hc : (s.withUnseen u).cmd = s.cmd := hcmd
  unfold runCommand
  rw [hc]
  cases decode s.cmd with
  | command i => exact outcomesAgree_exec i s u hcmd hfb hb
  | illegal why => exact .next (agree_complete _ _ s u hfb hb)

/-- A reset leaves nothing of the fields that have no specified value. -/
theorem agree_blockReset (s : State) (u : Unseen) : Agree (blockReset s) (blockReset (s.withUnseen u)) := by
  have heq : blockReset (s.withUnseen u) = blockReset s := by
    unfold blockReset
    rw [record_withUnseen]
    rfl
  rw [heq]
  exact ⟨⟨_, _, _, _, _⟩, ⟨fun _ => rfl, fun _ => rfl, fun _ => rfl, fun _ => rfl, fun _ => rfl, List.forall_mem_nil _,
    List.forall_mem_nil _⟩, rfl⟩

theorem outcomesAgree_idleStep {s : State} {u : Unseen} (h : s.Hides u) :
    OutcomesAgree (idleStep s) (idleStep (s.withUnseen u)) := by
  unfold idleStep
  have ho : (s.withUnseen u).offered = s.offered := rfl
  have hi : (s.withUnseen u).inputs = s.inputs := rfl
  rw [ho, hi]
  cases s.offered with
  | some w =>
    simp only [acceptStep, hi]
    split
    next l _ => exact .next (agree_blockReset { acceptWord w s with inputs := l } { u with cmd := w })
    next => exact outcomesAgree_runCommand (acceptWord w s) { u with cmd := w } rfl h.fb_of_ready h.below
  | none =>
    cases s.inputs with
    | nil => exact .next ⟨u, h, rfl⟩
    | cons i l =>
      cases i with
      | offer w => exact .next ⟨u, h.visible _ _ (some w) _ _ l _, rfl⟩
      | srcWrite a v => exact .next ⟨u, h.visible _ _ _ _ (s.src.write a.toNat v) l _, rfl⟩
      | txDone b => exact .next ⟨u, h.visible _ _ _ _ _ l _, rfl⟩
      | reset => exact .next (agree_blockReset { s with offered := none, inputs := l } u)
      | pass => exact .next ⟨u, h.visible _ _ _ _ _ l _, rfl⟩

theorem outcomesAgree_waitingStep {s : State} {u : Unseen} (h : s.Hides u) :
    OutcomesAgree (waitingStep s) (waitingStep (s.withUnseen u)) := by
  unfold waitingStep
  have hi : (s.withUnseen u).inputs = s.inputs := rfl
  rw [hi]
  cases s.inputs with
  | nil => exact .next ⟨u, h, rfl⟩
  | cons i l =>
    cases i with
    | offer w => exact .next ⟨u, h.visible _ _ (some w) _ _ l _, rfl⟩
    | srcWrite a v => exact .refused _
    | txDone b => exact .next (agree_consume _ ⟨u, h, rfl⟩)
    | reset => exact .next (agree_blockReset { s with inputs := l } u)
    | pass => exact .next ⟨u, h.visible _ _ _ _ _ l _, rfl⟩

theorem outcomesAgree_resumeStep {s : State} {u : Unseen} (h : s.Hides u) (hb : s.busy = true) :
    OutcomesAgree (resumeStep s) (resumeStep (s.withUnseen u)) := by
  unfold resumeStep
  have hi : (s.withUnseen u).inputs = s.inputs := rfl
  have hq : (s.withUnseen u).seq = s.seq := rfl
  rw [hi, hq, hasRow_withUnseen h]
  split
  next l _ => exact .next (agree_blockReset { s with inputs := l } u)
  next =>
    split
    · exact outcomesAgree_runCommand s u (h.cmd hb) h.fb_of_ready h.below
    · split
      · exact .next (agree_runSequencer ⟨u, h, rfl⟩)
      · exact .fault _

theorem outcomesAgree_step {s t : State} (h : Agree s t) : OutcomesAgree (step s) (step t) := by
  obtain ⟨u, h, rfl⟩ := h
  cases hb : s.busy with
  | false =>
    rw [step_idle s hb, step_idle (s.withUnseen u) hb]
    exact outcomesAgree_idleStep h
  | true =>
    rw [step_busy s hb, step_busy (s.withUnseen u) hb]
    unfold busyStep
    rw [rowRequest_withUnseen h]
    split
    next ho => rw [if_pos (show (s.withUnseen u).outstanding.isNone = true from ho)]; exact outcomesAgree_resumeStep h hb
    next ho =>
      rw [if_neg (show ¬(s.withUnseen u).outstanding.isNone = true from ho)]
      split
      next hw => rw [if_pos (by exact hw)]; exact outcomesAgree_waitingStep h
      next hw => rw [if_neg (by exact hw)]; exact .fault _

/-- Settles O53: agreement is kept by every step. -/
theorem unspecifiedStateIsNeverObserved : Obligations.UnspecifiedStateIsNeverObserved :=
  fun _ _ h₁ h₂ h => (outcomesAgree_step (agree_of_observable_eq h₁.fb_below h₂.fb_below h)).observable_eq

end Sys2Proof.Machine
end

section
/-! ## What REFRESH and INIT write, and the transitions of DRV_STATE -/

namespace Sys2Proof.Machine

/-! ### A run of REFRESH -/

/-- On the way of a REFRESH that began in s: SEQ is a row of REFRESH's table or the command has completed, and what only INIT and
the Framebuffer Store commands write is as in s. -/
structure RefreshRun (s t : State) : Prop where
  position : t.seq.isRefresh = true ∨ t.seq = .idle
  fb       : t.fb = s.fb
  dirtyMin : t.dirtyMin = s.dirtyMin
  dirtyMax : t.dirtyMax = s.dirtyMax
  rst      : t.rst = s.rst
  drv      : t.drv = s.drv
  initIdx  : t.initIdx = s.initIdx

/-- One operation after another on the way of a REFRESH. -/
theorem RefreshRun.trans {s t u : State} (h : RefreshRun s t) (g : RefreshRun t u) : RefreshRun s u :=
  ⟨g.position, g.fb.trans h.fb, g.dirtyMin.trans h.dirtyMin, g.dirtyMax.trans h.dirtyMax, g.rst.trans h.rst,
    g.drv.trans h.drv, g.initIdx.trans h.initIdx⟩

theorem rowAction_of_idle (s : State) (h : s.seq = .idle) : rowAction s = s := by simp [rowAction, h]

theorem rowAnswered_of_idle (s : State) (b : Bool) (h : s.seq = .idle) : rowAnswered b s = s := by simp [rowAnswered, h]

theorem refreshRun_rowAction (s : State) (h : s.seq.isRefresh = true ∨ s.seq = .idle) : RefreshRun s (rowAction s) := by
  rcases h with h | h
  · obtain ⟨hfb, hdrv, hmin, hmax, hrst⟩ := rowAction_fb_of_refresh s h
    have hrest : (rowAction s).seq.isRefresh = true ∧ (rowAction s).initIdx = s.initIdx := by
      cases hq : s.seq <;> simp [hq, Seq.isRefresh] at h
      case refData =>
        by_cases hk : s.chunk.val < 40
        · simp [rowAction_refData s hq hk, hq, Seq.isRefresh]
        · rw [rowAction_refData_end s hq hk]; exact ⟨rfl, rfl⟩
      case refBlank => simp [rowAction_refBlank s hq, hq, Seq.isRefresh]
      case refWindow => simp [rowAction_refWindow s hq, hq, Seq.isRefresh]
      case refUnblank => simp [rowAction_refUnblank s hq, hq, Seq.isRefresh]
    exact ⟨.inl hrest.1, hfb, hmin, hmax, hrst, hdrv, hrest.2⟩
  · rw [rowAction_of_idle s h]
    exact ⟨.inr h, rfl, rfl, rfl, rfl, rfl, rfl⟩

theorem refreshRun_rowAnswered (s : State) (b : Bool) (h : s.seq.isRefresh = true ∨ s.seq = .idle) :
    RefreshRun s (rowAnswered b s) := by
  rcases h with h | h
  · cases hq : s.seq <;> simp [hq, Seq.isRefresh] at h
    case refBlank => rw [rowAnswered_refBlank s b hq]; exact ⟨.inl rfl, rfl, rfl, rfl, rfl, rfl, rfl⟩
    case refWindow => rw [rowAnswered_refWindow s b hq]; exact ⟨.inl rfl, rfl, rfl, rfl, rfl, rfl, rfl⟩
    case refData =>
      rw [rowAnswered_refData s b hq, nextChunk_eq]
      exact ⟨.inl (by simp [hq, Seq.isRefresh]), rfl, rfl, rfl, rfl, rfl, rfl⟩
    case refUnblank => rw [rowAnswered_refUnblank s b hq]; exact ⟨.inr rfl, rfl, rfl, rfl, rfl, rfl, rfl⟩
  · rw [rowAnswered_of_idle s b h]
    exact ⟨.inr h, rfl, rfl, rfl, rfl, rfl, rfl⟩

theorem refreshRun_answered (s : State) (b : Bool) (l : List Input) (h : s.seq.isRefresh = true ∨ s.seq = .idle) :
    RefreshRun s (answered b { s with inputs := l }) := by
  have hrec : RefreshRun s (({ s with inputs := l } : State).record fun r => some (r.answer b)) :=
    ⟨by simpa using h, by simp, by simp, by simp, by simp, by simp, by simp⟩
  exact hrec.trans (refreshRun_rowAnswered _ b hrec.position)

/-- A run of REFRESH writes neither FB, DIRTY, RST, DRV_STATE nor INIT_IDX. -/
theorem refreshRun_runSequencer (s : State) (h : s.seq.isRefresh = true ∨ s.seq = .idle) : RefreshRun s (runSequencer s) :=
  runSequencer_induction (RefreshRun s) (fun t ht => ht.trans (refreshRun_rowAction t ht.position))
    (fun t b l ht => ht.trans (refreshRun_answered t b l ht.position)) s ⟨h, rfl, rfl, rfl, rfl, rfl, rfl⟩

/-- A REFRESH accepted in READY. -/
theorem refreshRun_of_refresh (s : State) (b : Bool) :
    RefreshRun s (runSequencer { s with werr := false, busy := true, seq := if b then .refWindow else .refBlank }) := by
  have h : (if b then Seq.refWindow else Seq.refBlank).isRefresh = true := by cases b <;> rfl
  have hrun := refreshRun_runSequencer
    { s with werr := false, busy := true, seq := if b then .refWindow else .refBlank } (.inl h)
  exact ⟨hrun.position, hrun.fb, hrun.dirtyMin, hrun.dirtyMax, hrun.rst, hrun.drv, hrun.initIdx⟩

/-! ### The fields each command writes -/

/-- REFRESH and the commands that only read or do nothing keep FB. -/
theorem fb_of_commandEffect {s t : State} {i : Instr} (he : CommandEffect s i t)
    (h : i = .halt ∨ (∃ b, i = .refresh b) ∨ (∃ a, i = .readByte a) ∨ (∃ x y, i = .getPixel x y)) : t.fb = s.fb := by
  cases he with
  | notNow | badOperand | halt | readByte | getPixel => rfl
  | refresh b hd => exact (refreshRun_of_refresh s b).fb
  | init | clear | blank | setPixel | loadImage => simp at h

theorem dirty_of_commandEffect {s t : State} {i : Instr} (he : CommandEffect s i t) (hi : i ≠ .init)
    (hl : i ≠ .loadImage 9600) : t.dirtyMin = s.dirtyMin ∧ t.dirtyMax = s.dirtyMax := by
  cases he with
  | init hd => exact absurd rfl hi
  | loadImage hd => exact absurd rfl hl
  | refresh b hd => exact ⟨(refreshRun_of_refresh s b).dirtyMin, (refreshRun_of_refresh s b).dirtyMax⟩
  | _ => exact ⟨rfl, rfl⟩

/-- RST, DRV_STATE and INIT_IDX are INIT's. -/
theorem initFields_of_commandEffect {s t : State} {i : Instr} (he : CommandEffect s i t) (hi : i ≠ .init) :
    t.rst = s.rst ∧ t.drv = s.drv ∧ t.initIdx = s.initIdx := by
  cases he with
  | init hd => exact absurd rfl hi
  | refresh b hd =>
    have hrun := refreshRun_of_refresh s b
    exact ⟨hrun.rst, hrun.drv, hrun.initIdx⟩
  | _ => exact ⟨rfl, rfl, rfl⟩

/-- DC, the transport port with its record and answers, CHUNK and WERR are written by the commands with a sequencer table only. -/
theorem sequencerFields_of_commandEffect {s t : State} {i : Instr} (he : CommandEffect s i t) (hi : i ≠ .init)
    (hr : ∀ b, i ≠ .refresh b) :
    t.dc = s.dc ∧ t.trace = s.trace ∧ t.inputs = s.inputs ∧ t.outstanding = s.outstanding ∧ t.chunk = s.chunk ∧
      t.werr = s.werr := by
  cases he with
  | init hd => exact absurd rfl hi
  | refresh b hd => exact absurd rfl (hr b)
  | _ => exact ⟨rfl, rfl, rfl, rfl, rfl, rfl⟩

/-- Settles O44, one group of fields after the other, each by cases on what the command does. -/
theorem onlyTheNamedCommandsWrite : Obligations.OnlyTheNamedCommandsWrite := by
  intro i s t h
  have he := exec_effect i s t h
  exact ⟨fb_of_commandEffect he, dirty_of_commandEffect he, initFields_of_commandEffect he, sequencerFields_of_commandEffect he⟩

/-! ### A run of INIT -/

/-- An INIT that began in s still runs in t, without a response. -/
def InitRuns (s t : State) : Prop := t.drv = .initializing ∧ t.busy = true ∧ t.responses = s.responses

/-- On the way of an INIT that began in s: it runs at a row of its table, or it has completed. -/
def InitRun (s t : State) : Prop := t.seq.isInit = true ∧ InitRuns s t ∨ t.seq = .idle ∧ initCompleted s t

/-- At the end an INIT runs still or has completed. -/
theorem InitRun.outcome {s t : State} (h : InitRun s t) : InitRuns s t ∨ initCompleted s t :=
  h.imp And.right And.right

theorem initRun_initFails (s t : State) (h : InitRuns s t) (e : Status)
    (he : e = .errTransportInit ∨ e = .errTransportWrite) : InitRun s (initFails e t) :=
  .inr ⟨rfl, rfl, .inr ⟨rfl, e, he, congrArg (· ++ _) h.2.2⟩⟩

theorem initRun_rowAction (s t : State) (h : InitRun s t) : InitRun s (rowAction t) := by
  rcases h with ⟨hi, hr⟩ | ⟨hq, hc⟩
  · cases hq : t.seq <;> simp [hq, Seq.isInit] at hi
    case initBus => rw [rowAction_initBus t hq]; exact .inl ⟨by simp [hq, Seq.isInit], hr⟩
    case initLines => rw [rowAction_initLines t hq]; exact .inl ⟨rfl, hr⟩
    case initZero => rw [rowAction_initZero t hq]; exact .inl ⟨rfl, hr⟩
    case initRstHi => rw [rowAction_initRstHi t hq]; exact .inl ⟨by simp [hq, Seq.isInit], hr⟩
    case initRstLo => rw [rowAction_initRstLo t hq]; exact .inl ⟨by simp [hq, Seq.isInit], hr⟩
    case initRstRel => rw [rowAction_initRstRel t hq]; exact .inl ⟨by simp [hq, Seq.isInit], hr⟩
    case initCmds =>
      cases he : t.params.initSeq[t.initIdx]? with
      | some e => rw [rowAction_initCmds t e hq he]; exact .inl ⟨by simp [hq, Seq.isInit], hr⟩
      | none =>
        rw [rowAction_initCmds_end t hq he]
        exact .inr ⟨rfl, rfl, .inl ⟨rfl, congrArg (· ++ _) hr.2.2⟩⟩
  · rw [rowAction_of_idle t hq]
    exact .inr ⟨hq, hc⟩

theorem initRun_rowAnswered (s t : State) (b : Bool) (h : InitRun s t) : InitRun s (rowAnswered b t) := by
  rcases h with ⟨hi, hr⟩ | ⟨hq, hc⟩
  · cases hq : t.seq <;> simp [hq, Seq.isInit] at hi
    case initBus =>
      rw [rowAnswered_initBus t b hq]
      cases b with
      | true => exact .inl ⟨rfl, hr⟩
      | false => exact initRun_initFails s t hr _ (.inl rfl)
    case initLines => rw [rowAnswered_initLines t b hq]; exact .inl ⟨by rw [hq]; rfl, hr⟩
    case initZero => rw [rowAnswered_initZero t b hq]; exact .inl ⟨by rw [hq]; rfl, hr⟩
    case initRstHi => rw [rowAnswered_initRstHi t b hq]; exact .inl ⟨rfl, hr⟩
    case initRstLo => rw [rowAnswered_initRstLo t b hq]; exact .inl ⟨rfl, hr⟩
    case initRstRel => rw [rowAnswered_initRstRel t b hq]; exact .inl ⟨rfl, hr⟩
    case initCmds =>
      rw [rowAnswered_initCmds t b hq]
      cases b with
      | true => exact .inl ⟨by simp [hq, Seq.isInit], hr⟩
      | false => exact initRun_initFails s t hr _ (.inr rfl)
  · rw [rowAnswered_of_idle t b hq]
    exact .inr ⟨hq, hc⟩

theorem initRun_answered (s t : State) (b : Bool) (l : List Input) (h : InitRun s t) :
    InitRun s (answered b { t with inputs := l }) :=
  initRun_rowAnswered s _ b (by simpa [InitRun, InitRuns, initCompleted] using h)

/-- A run of INIT keeps on running, or completes READY or FAILED with its response. -/
theorem initRun_runSequencer (s t : State) (h : InitRun s t) : InitRun s (runSequencer t) :=
  runSequencer_induction (InitRun s) (initRun_rowAction s) (initRun_answered s) t h

/-! ### DRV_STATE -/

/-- A command other than an INIT in UNINIT keeps DRV_STATE. -/
theorem drv_of_commandEffect {s t : State} {i : Instr} (he : CommandEffect s i t) (h : i = .init → s.drv ≠ .uninit) :
    t.drv = s.drv := by
  cases he with
  | init hd => exact absurd hd (h rfl)
  | refresh b hd => exact (refreshRun_of_refresh s b).drv
  | _ => rfl

/-- An INIT in UNINIT runs, or completes READY or FAILED with its response. -/
theorem init_of_commandEffect {s t : State} (he : CommandEffect s .init t) (h : s.drv = .uninit) :
    InitRuns s t ∨ initCompleted s t := by
  cases he with
  | notNow i hi hd => exact absurd h hd
  | badOperand i e hi hd he => exact absurd rfl hi
  | init hd =>
    exact (initRun_runSequencer s { s with drv := .initializing, busy := true, seq := .initBus }
      (.inl ⟨rfl, rfl, rfl, rfl⟩)).outcome

/-- Settles O47, by cases on what the step does. -/
theorem drvStateTransitions : Obligations.DrvStateTransitions := by
  intro s t h hs
  have hbusy : s.drv = .initializing → s.busy = true := fun hd => by
    by_contra hb
    exact h.not_initializing (by simpa using hb) hd
  have hidle : s.drv = .uninit → s.busy = false := fun hd => by
    by_contra hb
    rcases h.running (by simpa using hb) with ⟨hd', -⟩ | ⟨hd', -⟩ <;> simp [hd] at hd'
  cases step_effect s t h.control hs with
  | reset l hi => exact ⟨fun _ => rfl, fun hr => absurd (by rw [hi]; rfl) hr⟩
  | outside o m l hr hq hm =>
    refine ⟨fun hr' => absurd hr' hr, fun _ => ⟨fun hd => .inl ⟨hd, ?_⟩, fun hd => .inl ⟨hd, hbusy hd, rfl⟩, id, id⟩⟩
    rw [hq.resolve_left (by simp [hidle hd])]
    nofun
  | illegal w why hr hb ho hd =>
    refine ⟨fun hr' => absurd hr' hr, fun _ => ⟨fun hu => .inl ⟨hu, ?_⟩, fun hi => absurd hi (h.not_initializing hb), id, id⟩⟩
    rintro hw
    rw [ho, Option.some.injEq, ← decode_eq_init, hd] at hw
    cases hw
  | command w i t hr hb ho hd he =>
    refine ⟨fun hr' => absurd hr' hr, fun _ => ⟨fun hu => ?_, fun hi => absurd hi (h.not_initializing hb), fun hr => ?_,
      fun hf => ?_⟩⟩
    · by_cases hi : i = .init
      · subst hi
        have hrun := init_of_commandEffect he hu
        exact .inr ⟨hb, by rw [ho, (decode_eq_init w).1 hd], hrun⟩
      · refine .inl ⟨(drv_of_commandEffect he fun h => absurd h hi).trans hu, fun hw => hi ?_⟩
        rw [ho, Option.some.injEq, ← decode_eq_init, hd] at hw
        exact Decoded.command.inj hw
    · exact (drv_of_commandEffect he fun _ => by simp [acceptWord, hr]).trans hr
    · exact (drv_of_commandEffect he fun _ => by simp [acceptWord, hf]).trans hf
  | answer b l hi hb ho =>
    refine ⟨fun hr' => by simp [hi] at hr', fun _ => ?_⟩
    rcases h.running hb with ⟨hd, hq⟩ | ⟨hd, hq⟩
    · have hrun := initRun_runSequencer s _ (initRun_answered s s b l (.inl ⟨hq, hd, hb, rfl⟩))
      exact ⟨fun hu => by simp [hd] at hu, fun _ => hrun.outcome, fun hr => by simp [hd] at hr, fun hf => by simp [hd] at hf⟩
    · have hans := refreshRun_answered s b l (.inl hq)
      have hdrv := (hans.trans (refreshRun_runSequencer _ hans.position)).drv
      exact ⟨fun hu => by simp [hd] at hu, fun hi => by simp [hd] at hi, hdrv.trans, hdrv.trans⟩

end Sys2Proof.Machine
end

section
/-! ## The command port, the idle block and the status words -/

namespace Sys2Proof.Machine

/-! ### The command port -/

/-- Settles O6: the accepting step runs the command. -/
theorem stepRunsTheOfferedCommand : Obligations.StepRunsTheOfferedCommand :=
  fun s w i hb ho hr hd => step_accept s w i hb ho hr hd

/-- The word of a command, as a number of 32 bits, is that word again. -/
theorem ofNat_toNat_encode (i : Instr) : BitVec.ofNat 32 ((encode i).toNat % Nat.pow 2 32) = encode i := by
  rw [Nat.mod_eq_of_lt (encode i).isLt, BitVec.ofNat_toNat, BitVec.setWidth_eq]

theorem decodeTableWord_encode (i : Instr) (h : i.WellFormed) : decodeTableWord 32 (encode i).toNat = some i := by
  have hw : 32 ≤ 32 ∧ (encode i).toNat < 4294967296 := ⟨le_rfl, (encode i).isLt⟩
  rw [decodeTableWord, if_pos hw, BitVec.ofNat_toNat, BitVec.setWidth_eq, decode_encode i h]

/-- No reset comes first once the resets at the head are dropped. -/
theorem head_dropWhile_reset (l : List Input) : (l.dropWhile (· == .reset)).head? ≠ some .reset := by
  intro h
  have := List.head?_dropWhile_not (fun i => i == Input.reset) l
  rw [h] at this
  simp at this

/-- Settles O7: the word decodes to its command, and no reset comes before it is accepted. -/
theorem fetchWordIsRunByTheNextStep : Obligations.FetchWordIsRunByTheNextStep := by
  intro i s h
  refine ⟨decodeTableWord_encode i h, ?_⟩
  have ho : (s.withFetchWord 32 (encode i).toNat).offered = some (encode i) := congrArg some (ofNat_toNat_encode i)
  exact step_accept _ (encode i) i rfl ho (head_dropWhile_reset s.inputs) (decode_encode i h)

/-! ### The idle block -/

/-- Settles O8: each move in turn; a byte written to SRC reads back, the others read as before. -/
theorem idleBlockTakesOutsideMoves : Obligations.IdleBlockTakesOutsideMoves := by
  intro s hb ho
  refine ⟨step_idle_nothing s hb ho, fun w l hi => step_idle_input s _ l hb ho hi, fun b l hi => step_idle_input s _ l hb ho hi,
    fun l hi => step_idle_input s _ l hb ho hi, fun a v l hi hw => ⟨_, step_idle_input s _ l hb ho hi, rfl, fun b => ?_⟩⟩
  simp only [idleInput, Memory.read_write a.toNat v b hw, eq_comm (a := b)]

/-! ### STATUS and DIRTY -/

/-- Settles O10: a closed fact about the reset state. -/
theorem resetStateAsTheHostSeesIt : Obligations.ResetStateAsTheHostSeesIt := ⟨rfl, rfl, rfl⟩

/-- The fields of STATUS with the codes as they are stored (10_state.md R30). -/
theorem bits_statusWord (s : State) :
    bits (statusWord s) 0 0 = s.busy.toNat ∧ bits (statusWord s) 2 1 = s.drv.code.toNat ∧ bits (statusWord s) 3 3 = 0 ∧
      bits (statusWord s) 7 4 = s.rspStatus.code.toNat ∧ bits (statusWord s) 15 8 = s.rspData.toNat ∧
      bits (statusWord s) 31 16 = 0 := by
  have hbusy : s.busy.toNat < 2 := Bool.toNat_lt s.busy
  have hdrv : s.drv.code.toNat < 4 := s.drv.code.isLt
  have hcode : s.rspStatus.code.toNat < 8 := by cases s.rspStatus <;> decide
  have hdata : s.rspData.toNat < 256 := s.rspData.isLt
  simp only [bits_eq, statusWord_toNat]
  omega

/-- Settles O12: the fields of the word are the codes of R21 and R82. -/
theorem statusWordFields : Obligations.StatusWordFields := by
  intro s
  obtain ⟨hbusy, hdrv, hzero, hcode, hdata, hhigh⟩ := bits_statusWord s
  refine ⟨?_, ?_, hzero, ?_, hdata, hhigh, rfl⟩
  · rw [hbusy]
    cases s.busy <;> rfl
  · rw [hdrv]
    cases s.drv <;> rfl
  · rw [hcode]
    cases s.rspStatus <;> rfl

/-- Settles O13: DIRTY is DIRTY_MAX times 2^16 plus DIRTY_MIN. -/
theorem dirtyWordFields : Obligations.DirtyWordFields := by
  intro s
  have hmin := s.dirtyMin.isLt
  have hmax := s.dirtyMax.isLt
  refine ⟨?_, ?_, rfl⟩
  · rw [bits_eq, dirtyWord_toNat]
    omega
  · rw [bits_eq, dirtyWord_toNat]
    omega

end Sys2Proof.Machine
end

section
/-! ## Answers in portions, the layout of the framebuffer, and what steps keep of the memories -/

namespace Sys2Proof.Machine

/-! ### Answers in portions

A run that has used up its answers and goes on with later ones is the run with all of them at hand: the rows of a run read the coming
inputs nowhere (`rowAction_withInputs`, `rowAnswered_withInputs`), and between steps a busy command waits on the request of its row. -/

/-- The coming inputs are none, or begin with an answer. -/
def AnswersFirst (l : List Input) : Prop := l = [] ∨ ∃ b k, l = .txDone b :: k

theorem answersFirst_answers (xs : List Bool) : AnswersFirst (answers xs) := by
  cases xs with
  | nil => exact .inl rfl
  | cons x xs => exact .inr ⟨x, answers xs, rfl⟩

theorem answersFirst_answers_append (xs : List Bool) (y : Bool) (l : List Input) :
    AnswersFirst (answers xs ++ .txDone y :: l) := by
  cases xs with
  | nil => exact .inr ⟨y, l, rfl⟩
  | cons x xs => exact .inr ⟨x, answers xs ++ .txDone y :: l, rfl⟩

theorem AnswersFirst.not_reset {l : List Input} (h : AnswersFirst l) : l.head? ≠ some .reset := by
  obtain rfl | ⟨b, k, rfl⟩ := h
  · nofun
  · nofun

/-- Portions of answers, and the inputs after them, as one list. -/
theorem answers_append (xs : List Bool) (y : Bool) (ys : List Bool) (l : List Input) :
    answers (xs ++ y :: ys) ++ l = answers xs ++ .txDone y :: (answers ys ++ l) := by
  simp [answers]

/-- s with other inputs to come. -/
def State.withInputs (l : List Input) (s : State) : State := { s with inputs := l }

@[simp] theorem withInputs_inputs (l : List Input) (s : State) : (s.withInputs l).inputs = l := rfl
@[simp] theorem withInputs_outstanding (l : List Input) (s : State) : (s.withInputs l).outstanding = s.outstanding := rfl

/-- A run of a command that waits is the taking of the answers at hand. -/
theorem runSequencer_of_outstanding (s : State) (h : s.outstanding.isSome = true) :
    runSequencer s = consume s.inputs s := by
  unfold runSequencer
  rw [settle_of_outstanding 3 s h]

/-- An answer is taken alike whatever inputs follow it. -/
theorem consume_txDone_withInputs (b : Bool) (k l : List Input) (s : State) (h : s.outstanding.isSome = true) :
    consume (.txDone b :: k) (s.withInputs l) = consume k ((settle 3 (answered b s)).withInputs k) := by
  rw [consume_txDone b k (s.withInputs l) h]
  exact congrArg (consume k) ((congrArg (settle 3) (answered_withInputs b s k)).trans (settle_withInputs k 3 (answered b s)))

/-- A waiting command that has used up its answers goes on with the inputs that come then. -/
theorem consume_answers_append (l : List Input) : ∀ (xs : List Bool) (s : State),
    (consume (answers xs) (s.withInputs (answers xs))).outstanding.isSome = true →
    consume (answers xs ++ l) (s.withInputs (answers xs ++ l)) =
      consume l ((consume (answers xs) (s.withInputs (answers xs))).withInputs l)
  | [], _, _ => rfl
  | x :: xs, s, h => by
    have hcons : answers (x :: xs) = .txDone x :: answers xs := rfl
    by_cases ho : s.outstanding.isSome = true
    · simp only [hcons, List.cons_append, consume_txDone_withInputs x _ _ s ho] at h ⊢
      exact consume_answers_append l xs _ h
    · rw [consume_none _ (s.withInputs _) (by simpa using ho)] at h
      exact absurd h ho

/-- A run that ends waiting, having used up its answers, goes on with the inputs that come then. -/
theorem runSequencer_answers_append (xs : List Bool) (l : List Input) (s : State)
    (h : (runSequencer (s.withInputs (answers xs))).outstanding.isSome = true) :
    runSequencer (s.withInputs (answers xs ++ l)) = runSequencer ((runSequencer (s.withInputs (answers xs))).withInputs l) := by
  have hrun : ∀ k, runSequencer (s.withInputs k) = consume k ((settle 3 s).withInputs k) := fun k =>
    congrArg (fun t : State => consume t.inputs t) (settle_withInputs k 3 s)
  rw [runSequencer_of_outstanding ((runSequencer _).withInputs l) h]
  rw [hrun] at h ⊢
  rw [hrun]
  exact consume_answers_append l xs (settle 3 s) h

/-- A run waits on the request of the row SEQ stands at (20_memory.md R63). -/
def State.Waits (s : State) : Prop := s.outstanding = rowRequest s ∧ (rowRequest s).isSome = true

theorem State.Waits.isSome {s : State} (h : s.Waits) : s.outstanding.isSome = true := by rw [h.1]; exact h.2

/-- Nothing is outstanding and the block is idle. -/
def State.Quiet (s : State) : Prop := s.outstanding = none ∧ s.busy = false ∧ s.seq = .idle

/-- Nothing is outstanding, and a row is to be done or the command has completed. -/
def State.Between (s : State) : Prop := s.outstanding = none ∧ hasRow s = true ∨ s.Quiet

theorem State.Between.outstanding {s : State} (h : s.Between) : s.outstanding = none := h.elim And.left And.left

theorem quiet_complete (st : Status) (d : Byte) (s : State) (h : s.outstanding = none) : (complete st d s).Quiet :=
  ⟨h, rfl, rfl⟩

/-- A row without a request leads on to another row, or completes INIT. -/
theorem between_rowAction (s : State) (ho : s.outstanding = none) (hrow : hasRow s = true) (hr : rowRequest s = none) :
    (rowAction s).Between := by
  obtain hq | hq | ⟨hq, he⟩ | ⟨hq, hk⟩ := silent_row_cases s hrow hr
  · rw [rowAction_initLines s hq]; exact .inl ⟨ho, rfl⟩
  · rw [rowAction_initZero s hq]; exact .inl ⟨ho, rfl⟩
  · rw [rowAction_initCmds_end s hq he]; exact .inr (quiet_complete _ _ _ ho)
  · rw [rowAction_refData_end s hq hk]; exact .inl ⟨ho, rfl⟩

/-- An answer leads on to another row, or completes the command. -/
theorem between_rowAnswered (b : Bool) (s : State) (ho : s.outstanding = none) (hr : (rowRequest s).isSome = true) :
    (rowAnswered b s).Between := by
  cases hq : s.seq
  case idle => simp [rowRequest_idle s hq] at hr
  case exec => simp [rowRequest_exec s hq] at hr
  case initLines => simp [rowRequest_initLines s hq] at hr
  case initZero => simp [rowRequest_initZero s hq] at hr
  case initBus =>
    rw [rowAnswered_initBus s b hq]
    cases b with
    | true => exact .inl ⟨ho, rfl⟩
    | false => exact .inr (quiet_complete _ _ _ ho)
  case initRstHi => rw [rowAnswered_initRstHi s b hq]; exact .inl ⟨ho, rfl⟩
  case initRstLo => rw [rowAnswered_initRstLo s b hq]; exact .inl ⟨ho, rfl⟩
  case initRstRel => rw [rowAnswered_initRstRel s b hq]; exact .inl ⟨ho, by simp [hasRow, State.goto]⟩
  case initCmds =>
    rw [rowAnswered_initCmds s b hq]
    cases b with
    | true =>
      have hn : s.initIdx < s.params.initSeq.length := by simpa [rowRequest, hq] using hr
      exact .inl ⟨ho, by simpa [hasRow, hq] using hn⟩
    | false => exact .inr (quiet_complete _ _ _ ho)
  case refBlank => rw [rowAnswered_refBlank s b hq]; exact .inl ⟨ho, rfl⟩
  case refWindow => rw [rowAnswered_refWindow s b hq]; exact .inl ⟨ho, rfl⟩
  case refData => rw [rowAnswered_refData s b hq]; exact .inl ⟨by simpa using ho, by simp [hasRow, hq]⟩
  case refUnblank => rw [rowAnswered_refUnblank s b hq]; exact .inr (quiet_complete _ _ _ ho)

theorem State.Waits.between_answered {s : State} (h : s.Waits) (b : Bool) (l : List Input) :
    (answered b { s with inputs := l }).Between := by
  obtain ⟨r, hr⟩ := Option.isSome_iff_exists.1 h.isSome
  rw [answered_of_outstanding { s with inputs := l } r b hr]
  exact between_rowAnswered b _ rfl h.2

/-- A run from between two rows ends waiting on the request of a row, or with the command completed. -/
theorem State.Between.waits_or_quiet {s : State} (h : s.Between) : (runSequencer s).Waits ∨ (runSequencer s).Quiet := by
  refine runSequencer_by_rows State.Between (fun t => t.Waits ∨ t.Quiet) (fun t ht => ht.outstanding) ?_ ?_ ?_ ?_ s h
  · rintro t (⟨-, hrow⟩ | hquiet) hno
    · rw [hrow] at hno; cases hno
    · exact .inr hquiet
  · intro t r ht hr
    obtain ⟨dc, rst, ha⟩ := rowAction_of_request t r hr
    rw [ha]
    exact .inl ⟨hr.symm, by rw [rowRequest_withLines, hr]; rfl⟩
  · exact fun t ht hrow hr => between_rowAction t ht.outstanding hrow hr
  · rintro t b l (hw | hquiet) ho
    · exact hw.between_answered b l
    · rw [hquiet.1] at ho; cases ho

/-- A waiting command that goes on with the inputs at hand ends waiting on the request of a row, or completed. -/
theorem State.Waits.waits_or_quiet {s : State} (h : s.Waits) (l : List Input) (hl : AnswersFirst l) :
    (runSequencer (s.withInputs l)).Waits ∨ (runSequencer (s.withInputs l)).Quiet := by
  rw [runSequencer_of_outstanding (s.withInputs l) h.isSome, withInputs_inputs]
  obtain rfl | ⟨b, k, rfl⟩ := hl
  · exact .inl h
  · rw [consume_eq_runSequencer b k (s.withInputs (.txDone b :: k)) h.isSome]
    exact (h.between_answered b k).waits_or_quiet

/-- The step of a waiting command with no input or an answer at hand is a run. -/
theorem State.Waits.step_eq {s : State} (h : s.Waits) (hb : s.busy = true) (l : List Input) (hl : AnswersFirst l) :
    step (s.withInputs l) = .next (runSequencer (s.withInputs l)) := by
  obtain ⟨r, hr⟩ := Option.isSome_iff_exists.1 h.isSome
  rw [step_waiting (s.withInputs l) r hb hr h.2, runSequencer_of_outstanding (s.withInputs l) h.isSome]
  obtain rfl | ⟨b, k, rfl⟩ := hl
  · rfl
  · rfl

/-- If a step from s is a run from q, and that run waits when its answers are used up, the answers may come in portions. -/
theorem step_portions {s q u : State} {xs : List Bool} {y : Bool} {l : List Input}
    (hstep : ∀ k, AnswersFirst k → step (s.withInputs k) = .next (runSequencer (q.withInputs k)))
    (hend : ∀ k, AnswersFirst k → (runSequencer (q.withInputs k)).Waits ∨ (runSequencer (q.withInputs k)).Quiet)
    (hu : step (s.withInputs (answers xs)) = .next u) (hb : u.busy = true) :
    step (u.withInputs (.txDone y :: l)) = step (s.withInputs (answers xs ++ .txDone y :: l)) := by
  rw [hstep _ (answersFirst_answers xs), Host.Outcome.next.injEq] at hu
  subst hu
  rcases hend _ (answersFirst_answers xs) with hw | ⟨-, hidle, -⟩
  · rw [hw.step_eq hb _ (.inr ⟨y, l, rfl⟩), hstep _ (answersFirst_answers_append xs y l),
      runSequencer_answers_append xs _ q hw.isSome]
  · rw [hidle] at hb; cases hb

/-- A command that is left running is an INIT or a REFRESH, which is a run of the sequencer whatever inputs are to come. -/
theorem exec_runs_of_busy {i : Instr} {s t : State} (h : exec i s = .next t) (hb : t.busy = true) :
    ∃ q : State, q.outstanding = s.outstanding ∧ hasRow q = true ∧
      ∀ l, exec i (s.withInputs l) = .next (runSequencer (q.withInputs l)) := by
  cases exec_effect i s t h with
  | init hd => exact ⟨{ s with drv := .initializing, busy := true, seq := .initBus }, rfl, rfl, fun l => if_pos hd⟩
  | refresh b hd =>
    exact ⟨{ s with werr := false, busy := true, seq := if b then .refWindow else .refBlank }, rfl, by cases b <;> rfl,
      fun l => if_pos hd⟩
  | _ => cases hb

/-- An accepted word whose command is left running is a run of the sequencer whatever answers are to come. -/
theorem step_offered_runs_of_busy {s u : State} {w : Word} {k : List Input} (hb : s.busy = false) (ho : s.offered = some w)
    (hk : AnswersFirst k) (hu : step (s.withInputs k) = .next u) (hbu : u.busy = true) :
    ∃ q : State, q.outstanding = s.outstanding ∧ hasRow q = true ∧
      ∀ l, AnswersFirst l → step (s.withInputs l) = .next (runSequencer (q.withInputs l)) := by
  cases hd : decode w with
  | illegal why =>
    rw [step_illegal (s.withInputs k) w why hd hb ho hk.not_reset] at hu
    cases hu
    cases hbu
  | command i =>
    rw [step_accept (s.withInputs k) w i hb ho hk.not_reset hd] at hu
    obtain ⟨q, hq, hrow, hrun⟩ := exec_runs_of_busy hu hbu
    exact ⟨q, hq, hrow, fun l hl => (step_accept (s.withInputs l) w i hb ho hl.not_reset hd).trans (hrun l)⟩

/-- Settles O41: a step that leaves a command waiting is a run of the sequencer, and such a run may take its answers in portions. -/
theorem answersMayComeInPortions : Obligations.AnswersMayComeInPortions := by
  refine ⟨fun s u xs y ys rest hb ho hr hu hbu => ?_, fun s u w xs y ys rest hb hw ho hu hbu => ?_⟩
  · have hwaits : s.Waits := ⟨ho, hr⟩
    rw [answers_append]
    exact step_portions (hwaits.step_eq hb) hwaits.waits_or_quiet hu hbu
  · obtain ⟨q, hq, hrow, hstep⟩ := step_offered_runs_of_busy hb hw (answersFirst_answers xs) hu hbu
    have hbetween : ∀ l, (q.withInputs l).Between := fun l => .inl ⟨hq.trans ho, hrow⟩
    rw [answers_append]
    exact step_portions hstep (fun l _ => (hbetween l).waits_or_quiet) hu hbu

/-! ### A waiting block -/

/-- Settles O11: each move in turn, none of them the answer. -/
theorem waitingBlockTakesNoCommand : Obligations.WaitingBlockTakesNoCommand := by
  intro s r hb ho hr
  rw [step_waiting s r hb ho (by rw [hr]; rfl)]
  refine ⟨fun hi => ?_, fun l hi => ?_, fun w l hi => ?_, fun a v l hi => ?_⟩
  · rw [waitingStep, hi]
  · rw [waitingStep, hi]
  · rw [waitingStep, hi]
  · rw [waitingStep, hi]

/-! ### The framebuffer's layout -/

/-- Settles O29: 128 * y + 8 + x / 2 and 3 * (x % 2) have y, x / 2 and x % 2 as their digits. -/
theorem pixelsHaveTheirOwnFields : Obligations.PixelsHaveTheirOwnFields := by
  refine ⟨fun x y h => ?_, fun x y x' y' h h' ha hs => ?_⟩
  · obtain ⟨hx, hy⟩ := (inPanel_iff x y).1 h
    simp only [pixAddr, pixShift]
    omega
  · obtain ⟨hx, hy⟩ := (inPanel_iff x y).1 h
    obtain ⟨hx', hy'⟩ := (inPanel_iff x' y').1 h'
    simp only [pixAddr, pixShift] at ha hs
    omega

/-- The first m slices of n bytes, concatenated, are the first n * m bytes. -/
theorem flatMap_slice (mem : Memory) (n m : Nat) :
    (List.range m).flatMap (fun k => mem.slice (n * k) n) = (List.range (n * m)).map mem.read := by
  induction m with
  | zero => rfl
  | succ m ih =>
    have hslice : mem.slice (n * m) n = ((List.range n).map (n * m + ·)).map mem.read := by simp [Memory.slice]
    rw [List.range_succ, List.flatMap_append, List.flatMap_singleton, ih, hslice, ← List.map_append, ← List.range_add,
      Nat.mul_succ]

/-- Settles O40: 40 slices of 512 bytes. -/
theorem chunksCoverTheFramebuffer : Obligations.ChunksCoverTheFramebuffer := fun s => flatMap_slice s.fb 512 40

/-! ### What commands and steps keep of the memories -/

/-- Settles O45: a run keeps these fields, and so does every other effect of a command. -/
theorem noCommandWritesWhatIsTheHosts : Obligations.NoCommandWritesWhatIsTheHosts := by
  have hrun : ∀ s : State, (runSequencer s).src = s.src ∧ (runSequencer s).offered = s.offered ∧
      (runSequencer s).cmd = s.cmd ∧ (runSequencer s).params = s.params := fun s => by
    obtain ⟨hcmd, hoffered, hsrc, hparams⟩ := runSequencer_keeps s
    exact ⟨hsrc, hoffered, hcmd, hparams⟩
  intro i s t h
  cases exec_effect i s t h with
  | init hd => exact hrun { s with drv := .initializing, busy := true, seq := .initBus }
  | refresh b hd => exact hrun { s with werr := false, busy := true, seq := if b then .refWindow else .refBlank }
  | _ => exact ⟨rfl, rfl, rfl, rfl⟩

theorem State.MemoryOk.withFb {s t : State} (h : s.MemoryOk) (hw : t.fb.wf) (hb : t.fb.below Config.fbSize)
    (hsrc : t.src = s.src) : t.MemoryOk := ⟨hw, hb, hsrc ▸ h.src_wf, hsrc ▸ h.src_below⟩

theorem State.MemoryOk.zeroFb {s : State} (h : s.MemoryOk) (lo hi : Nat) : (s.zeroFb lo hi).MemoryOk :=
  h.withFb (Memory.wf_zeroRange lo hi h.fb_wf) (Memory.below_zeroRange lo hi h.fb_below) rfl

/-- INIT_ZERO alone of the rows writes FB. -/
theorem rowAction_fb (s : State) (h : s.seq ≠ .initZero) : (rowAction s).fb = s.fb := by
  cases hq : s.seq
  case initZero => exact absurd hq h
  all_goals simp only [rowAction, hq]
  all_goals repeat' split
  all_goals rfl

@[simp] theorem rowAction_src (s : State) : (rowAction s).src = s.src := by
  unfold rowAction
  repeat' split
  all_goals rfl

@[simp] theorem answered_fb (b : Bool) (s : State) : (answered b s).fb = s.fb := by
  unfold answered rowAnswered
  repeat' split
  all_goals simp

@[simp] theorem answered_src (b : Bool) (s : State) : (answered b s).src = s.src := by
  unfold answered rowAnswered
  repeat' split
  all_goals simp

theorem memoryOk_rowAction (s : State) (h : s.MemoryOk) : (rowAction s).MemoryOk := by
  by_cases hq : s.seq = .initZero
  · rw [rowAction_initZero s hq]
    exact (h.zeroFb 0 Config.fbSize).congr rfl rfl
  · exact h.congr (rowAction_fb s hq) (rowAction_src s)

theorem memoryOk_answered (s : State) (b : Bool) (l : List Input) (h : s.MemoryOk) :
    (answered b { s with inputs := l }).MemoryOk := h.congr (by simp) (by simp)

theorem memoryOk_runSequencer (s : State) (h : s.MemoryOk) : (runSequencer s).MemoryOk :=
  runSequencer_induction State.MemoryOk memoryOk_rowAction memoryOk_answered s h

theorem memoryOk_commandEffect {s t : State} {i : Instr} (he : CommandEffect s i t) (h : s.MemoryOk) : t.MemoryOk := by
  cases he with
  | init hd => exact memoryOk_runSequencer _ (h.congr rfl rfl)
  | refresh b hd => exact memoryOk_runSequencer _ (h.congr rfl rfl)
  | clear rs re hd => exact (h.zeroFb _ _).congr rfl rfl
  | blank hd => exact (h.zeroFb _ _).congr rfl rfl
  | setPixel x y p hd hxy =>
    refine h.withFb (Memory.wf_write _ _ h.fb_wf) (Memory.below_write h.fb_below ?_) rfl
    simp only [pixAddr, Config.fbSize]
    omega
  | loadImage hd =>
    exact h.withFb (Memory.wf_ofFn _ _ _) (by simpa using Memory.below_ofFn (imageByte s) 20480 0) rfl
  | notNow | badOperand | halt | readByte | getPixel => exact h.congr rfl rfl

theorem memoryOk_blockReset (s : State) (h : s.MemoryOk) : (blockReset s).MemoryOk :=
  h.withFb Memory.wf_nil (List.forall_mem_nil _) rfl

theorem memoryOk_stepEffect {s t : State} (he : StepEffect s t) (h : s.MemoryOk) : t.MemoryOk := by
  cases he with
  | reset l hi => exact memoryOk_blockReset _ (h.congr rfl rfl)
  | outside o m l hr hq hm =>
    obtain rfl | ⟨a, v, rfl⟩ := hm
    · exact h.congr rfl rfl
    · exact ⟨h.fb_wf, h.fb_below, Memory.wf_write _ _ h.src_wf, Memory.below_write h.src_below a.isLt⟩
  | illegal w why hr hb ho hd => exact h.congr rfl rfl
  | command w i t hr hb ho hd he => exact memoryOk_commandEffect he (h.congr rfl rfl)
  | answer b l hi hb ho => exact memoryOk_runSequencer _ (memoryOk_answered s b l h)

/-- What a step can do from any state, its control in order or not: besides the effects of a step, a busy block with nothing
outstanding goes on with its run or with the command in CMD. -/
inductive AnyStepEffect (s : State) : State → Prop where
  | regular (t : State) (he : StepEffect s t) : AnyStepEffect s t
  | resumedRun : AnyStepEffect s (runSequencer s)
  | resumedIllegal : AnyStepEffect s (raise .errOpcode s)
  | resumedCommand (i : Instr) (t : State) (he : CommandEffect s i t) : AnyStepEffect s t

/-- A step of a busy block with nothing outstanding goes on where SEQ stands. -/
theorem anyStepEffect_of_resumeStep (s t : State) (h : resumeStep s = .next t) (hr : s.inputs.head? ≠ some .reset) :
    AnyStepEffect s t := by
  unfold resumeStep at h
  split at h
  next l hi => simp [hi] at hr
  next =>
    split at h
    · unfold runCommand at h
      split at h
      next i hd => exact .resumedCommand i t (exec_effect i s t h)
      next why hd => cases h; exact .resumedIllegal
    · split at h
      · cases h; exact .resumedRun
      · cases h

theorem step_anyStepEffect (s t : State) (h : step s = .next t) : AnyStepEffect s t := by
  by_cases hr : s.inputs.head? = some .reset
  · obtain ⟨l, hi⟩ := List.head?_eq_some_iff.1 hr
    rw [step_reset s l hi] at h
    cases h
    exact .regular _ (.reset l hi)
  · cases hb : s.busy with
    | false =>
      cases ho : s.offered with
      | none => exact .regular t (step_effect_of_idle s t hb ho h hr)
      | some w => exact .regular t (step_effect_of_offered s t w hb ho h hr)
    | true =>
      cases ho : s.outstanding with
      | none =>
        rw [step_busy s hb, busyStep, if_pos (by simp [ho])] at h
        exact anyStepEffect_of_resumeStep s t h hr
      | some r =>
        by_cases hw : (rowRequest s).isSome = true
        · exact .regular t (step_effect_of_waiting s t r hb ho hw h hr)
        · rw [step_busy s hb, busyStep, if_neg (by simp [ho]), if_neg (by simp [hr, hw])] at h
          cases h

/-- Settles O50, by cases on what the step does, from any state. -/
theorem stepKeepsMemoriesCanonical : Obligations.StepKeepsMemoriesCanonical := by
  intro s t h hs
  cases step_anyStepEffect s t hs with
  | regular t he => exact memoryOk_stepEffect he h
  | resumedRun => exact memoryOk_runSequencer s h
  | resumedIllegal => exact h.congr rfl rfl
  | resumedCommand i t he => exact memoryOk_commandEffect he h

end Sys2Proof.Machine
end

section
/-! ## Command words: decoding and encoding agree, illegal words, and the levels' patterns -/

namespace Sys2Proof.Machine

/-! ### Legal words -/

/-- Settles O1: each operand comes back from its field of the word. -/
theorem decodeOfEncodeIsTheCommand : Obligations.DecodeOfEncodeIsTheCommand := decode_encode

/-- A command whose word, as a number, is w encodes as w. -/
theorem encode_eq_of_wordValue {i : Instr} {w : Word} (h : i.wordValue = w.toNat) : encode i = w := by
  rw [encode, h, BitVec.ofNat_toNat, BitVec.setWidth_eq]

/-- The operand fields fit their widths (30_encoding.md R71). -/
theorem bits_fit (w : Word) :
    bits w 27 20 < 256 ∧ bits w 19 12 < 256 ∧ bits w 15 0 < 65536 ∧ bits w 14 0 < 32768 ∧ bits w 0 0 < 2 := by
  simp only [bits_eq]
  omega

/-- Bit 0 read as a Bool is bit 0 as a number. -/
theorem toNat_bit_zero (w : Word) : (bits w 0 0 == 1).toNat = bits w 0 0 := by
  obtain ⟨-, -, -, -, hbit⟩ := bits_fit w
  interval_cases bits w 0 0 <;> rfl

theorem wellFormed_of_decode (w : Word) (i : Instr) (h : decode w = .command i) : i.WellFormed := by
  unfold decode at h
  split at h
  case h_10 => cases h
  all_goals
    obtain ⟨-, rfl⟩ := withReserved_eq_command.1 h
    simp [Instr.WellFormed, Instr.wellFormed, bits_fit w]

/-- The opcode, the operands and the zero reserved bits are all the digits of a legal word. -/
theorem encode_of_decode (w : Word) (i : Instr) (h : decode w = .command i) : encode i = w := by
  have hw := w.isLt
  unfold decode at h
  split at h
  case h_10 => cases h
  all_goals
    next hop =>
    obtain ⟨hres, rfl⟩ := withReserved_eq_command.1 h
    apply encode_eq_of_wordValue
    simp only [Instr.wordValue, toNat_bit_zero, BitVec.toNat_ofNat]
    simp only [bits_eq] at hop hres ⊢
    omega

/-- Settles O2: the fields of a word fit their widths, and put together again they are the word. -/
theorem encodeOfDecodeIsTheWord : Obligations.EncodeOfDecodeIsTheWord :=
  fun w i h => ⟨wellFormed_of_decode w i h, encode_of_decode w i h⟩

/-- Settles O3: each word is the encoding of its command, a closed fact for each. -/
theorem handWrittenWordsDecode : Obligations.HandWrittenWordsDecode :=
  ⟨decode_encode .init rfl, decode_encode (.clear 1 3) rfl, decode_encode .blank rfl,
    decode_encode (.setPixel 239 159 0x08#8) rfl, decode_encode (.loadImage 9600) rfl, decode_encode (.refresh true) rfl,
    decode_encode .halt rfl, decode_encode (.readByte 20479) rfl, decode_encode (.getPixel 239 159) rfl⟩

/-! ### Illegal words -/

/-- Settles O4: no row of the decoder has such an opcode. -/
theorem reservedOpcodesCompleteWithErrOpcode : Obligations.ReservedOpcodesCompleteWithErrOpcode := by
  intro w h
  have hd : decode w = .illegal .reservedOpcode := by
    unfold decode
    split
    case h_10 => rfl
    all_goals omega
  exact ⟨hd, fun s hb ho hr => step_illegal s w _ hd hb ho hr⟩

/-- A set bit of a format's reserved field makes the word illegal. -/
theorem withReserved_of_mask (w m : Word) (hi lo : Nat) (i : Instr) (hm : ∀ k < 32, m.getLsbD k = true → lo ≤ k ∧ k ≤ hi)
    (h : w &&& m ≠ 0#32) : withReserved (bits w hi lo) i = .illegal .reservedField :=
  if_neg fun h0 => h (and_mask_eq_zero w m hi lo hm h0)

/-- The reserved bits of a legal opcode's format are those the decoder checks (30_encoding.md R71, R75). -/
theorem decode_of_reserved_bit (w : Word) (h1 : 1 ≤ bits w 31 28) (h9 : bits w 31 28 ≤ 9)
    (h : w &&& reservedBits (bits w 31 28) ≠ 0#32) : decode w = .illegal .reservedField := by
  interval_cases hop : bits w 31 28
  all_goals
    simp only [decode, hop]
    exact withReserved_of_mask w _ _ _ _ (by decide) h

/-- Settles O5: the word is illegal, and an illegal word completes with ERR_OPCODE. -/
theorem reservedFieldsCompleteWithErrOpcode : Obligations.ReservedFieldsCompleteWithErrOpcode := by
  intro w h1 h9 h
  have hd := decode_of_reserved_bit w h1 h9 h
  exact ⟨hd, fun s hb ho hr => step_illegal s w _ hd hb ho hr⟩

/-! ### Levels and patterns -/

theorem levelOfCode_code (l : Level) : levelOfCode l.code = l := by cases l <;> rfl

@[simp] theorem levelOf_pat (l : Level) : levelOf (pat l) = some l := by cases l <;> rfl

/-- No pattern has a bit outside the field, or is one of the four field values that are no level. -/
theorem pat_bits (l : Level) : pat l &&& 0xE3#8 = 0x00#8 ∧ pat l ∉ [0x04#8, 0x0C#8, 0x14#8, 0x18#8] := by
  cases l <;> decide

/-- PAT is injective: LevelOf undoes it. -/
theorem pat_injective (l m : Level) (h : pat l = pat m) : l = m := by
  have hl := levelOf_pat l
  rw [h, levelOf_pat m] at hl
  exact (Option.some.inj hl).symm

/-- Settles O27: the rows of the table are closed facts. -/
theorem patternTable : Obligations.PatternTable :=
  ⟨rfl, rfl, rfl, rfl, rfl, rfl, rfl, rfl, rfl, rfl, rfl, rfl, fun l => ⟨levelOfCode_code l, pat_bits l⟩, pat_injective⟩

/-- A value has a level exactly when it is a legal pattern. -/
theorem legalPat_iff_levelOf (v : Byte) : legalPat v = true ↔ (levelOf v).isSome = true := by
  rw [legalPat_iff]
  unfold levelOf
  repeat' split
  all_goals simp [*]

/-- Settles O28: the definitions of R80, one after the other. -/
theorem legalPatternsAndLevelOf : Obligations.LegalPatternsAndLevelOf :=
  ⟨legalPat_iff, fun b => ⟨by rw [fieldOf, BitVec.ushiftRight_zero], rfl⟩, rfl, rfl, rfl, rfl,
    fun l => ⟨levelOf_pat l, (legalPat_iff_levelOf _).2 (by rw [levelOf_pat]; rfl)⟩, legalPat_iff_levelOf, by decide⟩

end Sys2Proof.Machine
end

section
/-! ## The assembler: numerals, and a line of each form -/

namespace Sys2Proof.Machine

/-! ### Numerals -/

/-- A digit string with one more digit at its end. -/
theorem digits_append_singleton (base : Nat) (digit : Char → Option Nat) (c : Char) (d : Nat) (hc : digit c = some d) :
    ∀ (cs : List Char) (acc n : Nat), digits base digit acc cs = some n →
      digits base digit acc (cs ++ [c]) = some (n * base + d)
  | [], acc, n, h => by
    cases h
    simp [digits, hc]
  | x :: xs, acc, n, h => by
    unfold digits at h
    split at h
    next e hx =>
      simp only [List.cons_append, digits, hx]
      exact digits_append_singleton base digit c d hc xs _ n h
    next => cases h

/-- The digits of a number, each read as its value, are read as the number. -/
theorem digits_toDigits (base : Nat) (digit : Char → Option Nat) (hb : 1 < base)
    (hd : ∀ d < base, digit (Nat.digitChar d) = some d) (n : Nat) : digits base digit 0 (Nat.toDigits base n) = some n := by
  induction n using Nat.strongRecOn with
  | ind n ih =>
    by_cases hn : n < base
    · rw [Nat.toDigits_of_lt_base hn]
      simp [digits, hd n hn]
    · have hlt : n / base < n := Nat.div_lt_self (by omega) hb
      rw [Nat.toDigits_of_base_le hb (by omega),
        digits_append_singleton base digit _ _ (hd _ (Nat.mod_lt n (by omega))) _ 0 _ (ih _ hlt), Nat.div_add_mod']

/-- A decimal digit string is that number: it does not begin with `0x`, since `x` is no decimal digit. -/
theorem number_of_decimal (cs : List Char) (n : Nat) (hne : cs ≠ []) (h : digits 10 decimalDigit 0 cs = some n) :
    number cs = some n := by
  unfold number
  split
  · exact absurd rfl hne
  · simp [digits, decimalDigit] at h
  · simp [digits, decimalDigit] at h
  · exact h

theorem number_of_hexadecimal (cs : List Char) (n : Nat) (hne : cs ≠ []) (h : digits 16 hexDigit 0 cs = some n) :
    number ('0' :: 'x' :: cs) = some n := by
  obtain ⟨c, cs, rfl⟩ := List.exists_cons_of_ne_nil hne
  exact h

/-- Settles O54: the digits of a number, in base 10 and in base 16, are read as that number. -/
theorem numeralsAreReadAsNumbers : Obligations.NumeralsAreReadAsNumbers := fun n =>
  ⟨number_of_decimal _ n Nat.toDigits_ne_nil (digits_toDigits 10 decimalDigit (by decide) (by decide) n),
    number_of_hexadecimal _ n Nat.toDigits_ne_nil (digits_toDigits 16 hexDigit (by decide) (by decide) n)⟩

/-! ### The operands of SET_LEVEL -/

theorem number_levelName (l : Level) : number (levelName l) = none := by cases l <;> decide

theorem levelOperand_levelName (l : Level) : levelOperand (levelName l) = some l := by cases l <;> decide

/-- A numeral is no level's name, so as a level operand it is a code (30_encoding.md R83). -/
theorem levelOperand_of_number (c : List Char) (n : Nat) (h : number c = some n) :
    levelOperand c = if n < 4 then some (levelOfCode (BitVec.ofNat 2 n)) else none := by
  have hname : ∀ l : Level, c ≠ levelName l := by
    rintro l rfl
    rw [number_levelName] at h
    cases h
  have hb := hname .black
  have hd := hname .darkGrey
  have hl := hname .lightGrey
  have hw := hname .white
  simp only [levelName] at hb hd hl hw
  simp only [levelOperand, hb, hd, hl, hw, if_false, h]
  rcases n with _ | _ | _ | _ | n
  · rfl
  · rfl
  · rfl
  · rfl
  · simp

theorem levelOperand_of_code (c : List Char) (l : Level) (h : number c = some l.code.toNat) : levelOperand c = some l := by
  rw [levelOperand_of_number c _ h, if_pos l.code.isLt, BitVec.ofNat_toNat, BitVec.setWidth_eq, levelOfCode_code]

/-! ### The command of each form -/

section
variable {a b c : List Char} {x y n : Nat}

theorem lineInstr_loadImage (ha : number a = some n) :
    lineInstr "LOAD_IMAGE".toList [a] = some (.loadImage n) := by
  simp [lineInstr, ha]

theorem lineInstr_readByte (ha : number a = some n) :
    lineInstr "READ_BYTE".toList [a] = some (.readByte n) := by
  simp [lineInstr, ha]

theorem lineInstr_refresh (ha : number a = some n) :
    lineInstr "REFRESH".toList [a] = if n < 2 then some (.refresh (n == 1)) else none := by
  rcases n with _ | _ | n
  · simp [lineInstr, ha]
  · simp [lineInstr, ha]
  · simp [lineInstr, ha]

theorem lineInstr_clear (ha : number a = some x) (hb : number b = some y) :
    lineInstr "CLEAR".toList [a, b] = some (.clear x y) := by
  simp [lineInstr, ha, hb]

theorem lineInstr_getPixel (ha : number a = some x) (hb : number b = some y) :
    lineInstr "GET_PIXEL".toList [a, b] = some (.getPixel x y) := by
  simp [lineInstr, ha, hb]

theorem lineInstr_setPixel (ha : number a = some x) (hb : number b = some y) (hc : number c = some n) :
    lineInstr "SET_PIXEL".toList [a, b, c] =
      if n < 256 then some (.setPixel x y (BitVec.ofNat 8 n)) else none := by
  simp [lineInstr, setPixelLine, ha, hb, hc]

theorem lineInstr_setLevel (ha : number a = some x) (hb : number b = some y) :
    lineInstr "SET_LEVEL".toList [a, b, c] = (levelOperand c).map (setLevel x y) := by
  cases hc : levelOperand c <;> simp [lineInstr, ha, hb, hc]

end

/-! ### Lines -/

/-- A mnemonic is a text without blanks, commas or semicolons. -/
theorem plain_of_all (cs : List Char) (hne : cs.isEmpty = false) (h : cs.all plainChar = true) : Plain cs :=
  ⟨List.isEmpty_eq_false_iff.1 hne, List.all_eq_true.1 h⟩

/-- A command whose operands fit exactly when p holds gives its word then, and is rejected otherwise. -/
theorem assembled_some (i : Instr) (p : Prop) [Decidable p] (h : i.WellFormed ↔ p) :
    assembled (some i) = if p then .word (encode i) else .rejected := if_congr h rfl rfl

/-- A line with two operands, its parts put together from the left. -/
theorem assembleLine_two_left (m a b : List Char) (hm : Plain m) (ha : Plain a) (hb : Plain b) :
    assembleLine (m ++ [' '] ++ a ++ [',', ' '] ++ b) = assembled (lineInstr m [a, b]) := by
  rw [← assembleLine_two m a b hm ha hb]
  simp only [List.append_assoc, List.cons_append, List.nil_append]

/-- A line with three operands, its parts put together from the left. -/
theorem assembleLine_three_left (m a b c : List Char) (hm : Plain m) (ha : Plain a) (hb : Plain b) (hc : Plain c) :
    assembleLine (m ++ [' '] ++ a ++ [',', ' '] ++ b ++ [',', ' '] ++ c) = assembled (lineInstr m [a, b, c]) := by
  rw [← assembleLine_three m a b c hm ha hb hc]
  simp only [List.append_assoc, List.cons_append, List.nil_append]

/-- LOAD_IMAGE, READ_BYTE and REFRESH of a numeral. -/
theorem assembleLine_of_one_numeral (a : List Char) (n : Nat) (ha : number a = some n) :
    assembleLine ("LOAD_IMAGE ".toList ++ a) = (if n < 65536 then .word (encode (.loadImage n)) else .rejected) ∧
    assembleLine ("READ_BYTE ".toList ++ a) = (if n < 32768 then .word (encode (.readByte n)) else .rejected) ∧
    assembleLine ("REFRESH ".toList ++ a) = (if n < 2 then .word (encode (.refresh (n == 1))) else .rejected) := by
  have hp := plain_of_number a n ha
  refine ⟨(assembleLine_one "LOAD_IMAGE".toList a (plain_of_all _ rfl rfl) hp).trans ?_,
    (assembleLine_one "READ_BYTE".toList a (plain_of_all _ rfl rfl) hp).trans ?_,
    (assembleLine_one "REFRESH".toList a (plain_of_all _ rfl rfl) hp).trans ?_⟩
  · rw [lineInstr_loadImage ha]
    exact assembled_some _ _ (by simp [Instr.WellFormed, Instr.wellFormed])
  · rw [lineInstr_readByte ha]
    exact assembled_some _ _ (by simp [Instr.WellFormed, Instr.wellFormed])
  · rw [lineInstr_refresh ha]
    split <;> rfl

/-- CLEAR and GET_PIXEL of two numerals. -/
theorem assembleLine_of_two_numerals (a b : List Char) (x y : Nat) (ha : number a = some x) (hb : number b = some y) :
    assembleLine ("CLEAR ".toList ++ a ++ ", ".toList ++ b) =
      (if x < 256 ∧ y < 256 then .word (encode (.clear x y)) else .rejected) ∧
    assembleLine ("GET_PIXEL ".toList ++ a ++ ", ".toList ++ b) =
      (if x < 256 ∧ y < 256 then .word (encode (.getPixel x y)) else .rejected) := by
  have hpa := plain_of_number a x ha
  have hpb := plain_of_number b y hb
  refine ⟨(assembleLine_two_left "CLEAR".toList a b (plain_of_all _ rfl rfl) hpa hpb).trans ?_,
    (assembleLine_two_left "GET_PIXEL".toList a b (plain_of_all _ rfl rfl) hpa hpb).trans ?_⟩
  · rw [lineInstr_clear ha hb]
    exact assembled_some _ _ (by simp [Instr.WellFormed, Instr.wellFormed])
  · rw [lineInstr_getPixel ha hb]
    exact assembled_some _ _ (by simp [Instr.WellFormed, Instr.wellFormed])

/-- SET_PIXEL of three numerals. -/
theorem assembleLine_setPixel (a b c : List Char) (x y p : Nat) (ha : number a = some x) (hb : number b = some y)
    (hc : number c = some p) :
    assembleLine ("SET_PIXEL ".toList ++ a ++ ", ".toList ++ b ++ ", ".toList ++ c) =
      (if x < 256 ∧ y < 256 ∧ p < 256 then .word (encode (.setPixel x y (BitVec.ofNat 8 p))) else .rejected) := by
  refine (assembleLine_three_left "SET_PIXEL".toList a b c (plain_of_all _ rfl rfl) (plain_of_number a x ha)
    (plain_of_number b y hb) (plain_of_number c p hc)).trans ?_
  rw [lineInstr_setPixel ha hb hc]
  split
  next hp => exact assembled_some _ _ (by simp [Instr.WellFormed, Instr.wellFormed, hp])
  next hp => rw [if_neg fun h => hp h.2.2, assembled]

/-- SET_LEVEL of two numerals and a level operand. -/
theorem assembleLine_setLevel (a b c : List Char) (x y : Nat) (ha : number a = some x) (hb : number b = some y)
    (hc : Plain c) :
    assembleLine ("SET_LEVEL ".toList ++ a ++ ", ".toList ++ b ++ ", ".toList ++ c) =
      assembled ((levelOperand c).map (setLevel x y)) := by
  rw [← lineInstr_setLevel ha hb]
  exact assembleLine_three_left "SET_LEVEL".toList a b c (plain_of_all _ rfl rfl) (plain_of_number a x ha)
    (plain_of_number b y hb) hc

/-- A line's word is the word of a well-formed command. -/
theorem exists_instr_of_assembleLine (line : List Char) (w : Word) (h : assembleLine line = .word w) :
    ∃ i : Instr, i.WellFormed ∧ encode i = w := by
  unfold assembleLine at h
  split at h
  next => cases h
  next =>
    unfold assembled at h
    split at h
    next i hi =>
      split at h
      next hwf => exact ⟨i, hwf, AsmLine.word.inj h⟩
      next => cases h
    next => cases h

/-- Settles O55, one form after the other. -/
theorem linesAssembleToTheirCommands : Obligations.LinesAssembleToTheirCommands := by
  refine ⟨by decide, assembleLine_of_one_numeral, assembleLine_of_two_numerals, assembleLine_setPixel,
    fun a b c x y ha hb => ⟨fun l hl => ?_, fun n hc hn => ?_⟩, fun line note => ?_, fun line w h => ?_⟩
  · have hc : Plain c ∧ levelOperand c = some l := by
      rcases hl with hnum | rfl
      · exact ⟨plain_of_number c _ hnum, levelOperand_of_code c l hnum⟩
      · exact ⟨plain_levelName l, levelOperand_levelName l⟩
    rw [assembleLine_setLevel a b c x y ha hb hc.1, hc.2]
    exact assembled_some _ _ (by simp [setLevel, Instr.WellFormed, Instr.wellFormed])
  · rw [assembleLine_setLevel a b c x y ha hb (plain_of_number c n hc), levelOperand_of_number c n hc,
      if_neg (Nat.not_lt.2 hn)]
    rfl
  · rw [assembleLine, assembleLine, stripComment_comment]
  · obtain ⟨i, hwf, rfl⟩ := exists_instr_of_assembleLine line w h
    exact ⟨i, hwf, rfl, decode_encode i hwf⟩

/-- Settles O56: two closed lines. -/
theorem setLevelLineAssembles : Obligations.SetLevelLineAssembles := ⟨by decide, by decide⟩

end Sys2Proof.Machine
end

section
/-! ## The requests the block issues

`Lists s t` holds on the way of a step from s to t: FB is as in s while a REFRESH reads it, and every request recorded or issued
since s is one the block may issue. -/

namespace Sys2Proof.Machine

/-! ### The rows -/

theorem emittable_initWrite (p : Params) (fb : Memory) (e : InitEntry) (he : e ∈ p.initSeq) : Emittable p fb (initWrite e) :=
  .inr (.inr (.inr (.inl ⟨e, he, rfl⟩)))

theorem emittable_chunkWrite (p : Params) (fb : Memory) (k : Nat) (hk : k < 40) : Emittable p fb (chunkWrite fb k) :=
  .inr (.inr (.inr (.inr (.inr (.inr (.inl ⟨k, hk, rfl⟩))))))

/-- A row's request is one the block may issue; only REFRESH's rows read FB (30_encoding.md R81, 41_sequencer.md R152, R154). -/
theorem emittable_of_rowRequest (s : State) (fb : Memory) (r : Request) (hfb : s.seq.isRefresh = true → s.fb = fb)
    (h : rowRequest s = some r) : Emittable s.params fb r := by
  cases hq : s.seq
  case idle => simp [rowRequest_idle s hq] at h
  case exec => simp [rowRequest_exec s hq] at h
  case initLines => simp [rowRequest_initLines s hq] at h
  case initZero => simp [rowRequest_initZero s hq] at h
  case initBus => rw [rowRequest_initBus s hq] at h; cases h; simp [Emittable]
  case initRstHi => rw [rowRequest_initRstHi s hq] at h; cases h; simp [Emittable]
  case initRstLo => rw [rowRequest_initRstLo s hq] at h; cases h; simp [Emittable]
  case initRstRel => rw [rowRequest_initRstRel s hq] at h; cases h; simp [Emittable]
  case initCmds =>
    cases he : s.params.initSeq[s.initIdx]? with
    | none => rw [rowRequest_initCmds_end s hq he] at h; cases h
    | some e =>
      rw [rowRequest_initCmds s e hq he] at h
      cases h
      exact emittable_initWrite s.params fb e (List.mem_of_getElem? he)
  case refBlank => rw [rowRequest_refBlank s hq] at h; cases h; simp [Emittable]
  case refWindow => rw [rowRequest_refWindow s hq] at h; cases h; simp [Emittable]
  case refData =>
    by_cases hk : s.chunk.val < 40
    · rw [rowRequest_refData s hq hk] at h
      cases h
      rw [← hfb (by rw [hq]; rfl)]
      exact emittable_chunkWrite s.params s.fb s.chunk.val hk
    · rw [rowRequest_refData_end s hq hk] at h; cases h
  case refUnblank => rw [rowRequest_refUnblank s hq] at h; cases h; simp [Emittable]

@[simp] theorem rowAction_params (s : State) : (rowAction s).params = s.params := by
  unfold rowAction
  repeat' split
  all_goals rfl

@[simp] theorem rowAction_trace (s : State) : (rowAction s).trace = s.trace := by
  unfold rowAction
  repeat' split
  all_goals rfl

/-- A row issues its own request or leaves the port as it was. -/
theorem rowAction_port (s : State) (r : Request) (h : (rowAction s).outstanding = some r) :
    rowRequest s = some r ∨ s.outstanding = some r := by
  cases hr : rowRequest s with
  | some r' => rw [rowAction_outstanding s r' hr] at h; exact .inl h
  | none =>
    refine .inr (h ▸ ?_)
    cases hq : s.seq <;> simp [rowRequest, hq] at hr
    case idle => simp [rowAction, hq]
    case exec => simp [rowAction, hq]
    case initLines => simp [rowAction_initLines s hq]
    case initZero => simp [rowAction_initZero s hq, fbInit]
    case initCmds => rw [rowAction_initCmds_end s hq (by simpa using hr)]; rfl
    case refData => rw [rowAction_refData_end s hq (by omega)]; rfl

/-- No row of INIT leads to a row of REFRESH. -/
theorem isRefresh_of_rowAction (s : State) (h : (rowAction s).seq.isRefresh = true) : s.seq.isRefresh = true := by
  cases hq : s.seq
  case refBlank | refWindow | refData | refUnblank => rfl
  case initCmds =>
    cases he : s.params.initSeq[s.initIdx]? with
    | none => rw [rowAction_initCmds_end s hq he] at h; cases h
    | some e => rw [rowAction_initCmds s e hq he, writeCd_seq, hq] at h; cases h
  all_goals
    simp [rowAction, hq, Seq.isRefresh, State.goto, State.issue, State.setRst] at h

theorem isRefresh_of_rowAnswered (b : Bool) (s : State) (h : (rowAnswered b s).seq.isRefresh = true) :
    s.seq.isRefresh = true := by
  cases hq : s.seq
  case refBlank | refWindow | refData | refUnblank => rfl
  all_goals
    cases b <;> simp [rowAnswered, hq, Seq.isRefresh, initFails] at h

/-- An answered row changes neither the parameters nor the port nor the record. -/
theorem rowAnswered_frame (b : Bool) (s : State) :
    (rowAnswered b s).params = s.params ∧ (rowAnswered b s).outstanding = s.outstanding ∧
      (rowAnswered b s).trace = s.trace := by
  unfold rowAnswered
  repeat' split
  all_goals simp [initFails, noteFailure]

/-! ### Runs and steps -/

/-- The record of t is that of s with events of requests the block may issue, with s's parameters and FB. -/
def RecordsListed (s t : State) : Prop :=
  ∃ events, t.trace = s.trace ++ events ∧ ∀ e ∈ events, Emittable s.params s.fb e.request

theorem RecordsListed.of_trace_eq {s t : State} (h : t.trace = s.trace) : RecordsListed s t :=
  ⟨[], by rw [h, List.append_nil], List.forall_mem_nil _⟩

/-- What holds on the way of a step from s. -/
structure Lists (s t : State) : Prop where
  params : t.params = s.params
  fb     : t.seq.isRefresh = true → t.fb = s.fb
  port   : ∀ r, t.outstanding = some r → Emittable s.params s.fb r
  record : RecordsListed s t

/-- Recording the outstanding request, answered or abandoned. -/
theorem Lists.recorded {s t : State} (h : Lists s t) (answer : Request → Option Answer) :
    RecordsListed s (t.record answer) := by
  obtain ⟨events, htrace, hall⟩ := h.record
  cases ho : t.outstanding with
  | none => rw [record_of_none answer t ho]; exact ⟨events, htrace, hall⟩
  | some r =>
    refine ⟨events ++ [⟨r, t.rst, answer r⟩], by rw [record_trace_of_some answer t r ho, htrace, List.append_assoc], ?_⟩
    intro e he
    rcases List.mem_append.1 he with he | he
    · exact hall e he
    · rw [List.mem_singleton.1 he]
      exact h.port r ho

/-- The offered word and the coming inputs do not matter. -/
theorem Lists.withHost {s t : State} (h : Lists s t) (o : Option Word) (l : List Input) :
    Lists s { t with offered := o, inputs := l } := ⟨h.params, h.fb, h.port, h.record⟩

theorem Lists.rowAction {s t : State} (h : Lists s t) : Lists s (rowAction t) where
  params := (rowAction_params t).trans h.params
  fb hq := by
    have ht := isRefresh_of_rowAction t hq
    obtain ⟨hfb, -⟩ := rowAction_fb_of_refresh t ht
    exact hfb.trans (h.fb ht)
  port r hr := by
    rcases rowAction_port t r hr with hrow | hport
    · exact h.params ▸ emittable_of_rowRequest t s.fb r h.fb hrow
    · exact h.port r hport
  record := by
    obtain ⟨events, htrace, hall⟩ := h.record
    exact ⟨events, (rowAction_trace t).trans htrace, hall⟩

theorem Lists.answered {s t : State} (h : Lists s t) (b : Bool) (l : List Input) :
    Lists s (answered b { t with inputs := l }) := by
  have hrec : RecordsListed s (({ t with inputs := l } : State).record fun r => some (r.answer b)) :=
    (h.withHost t.offered l).recorded _
  obtain ⟨hparams, hport, htrace⟩ := rowAnswered_frame b (({ t with inputs := l } : State).record fun r => some (r.answer b))
  refine ⟨hparams.trans (by simpa using h.params), fun hq => ?_, fun r hr => ?_, ?_⟩
  · exact (answered_fb b _).trans (h.fb (by simpa using isRefresh_of_rowAnswered b _ hq))
  · rw [Machine.answered, hport, record_outstanding] at hr
    cases hr
  · obtain ⟨events, heq, hall⟩ := hrec
    exact ⟨events, htrace.trans heq, hall⟩

theorem Lists.run {s t : State} (h : Lists s t) : RecordsListed s (runSequencer t) :=
  (runSequencer_induction (Lists s) (fun _ ht => ht.rowAction) (fun _ b l ht => ht.answered b l) t h).record

/-- A command that starts with no request outstanding records requests the block may issue. -/
theorem recordsListed_of_commandEffect {s t : State} {i : Instr} (he : CommandEffect s i t) (ho : s.outstanding = none) :
    RecordsListed s t := by
  cases he with
  | init hd =>
    exact Lists.run ⟨rfl, nofun, fun r hr => by simp [ho] at hr, .of_trace_eq rfl⟩
  | refresh b hd => exact Lists.run ⟨rfl, fun _ => rfl, fun r hr => by simp [ho] at hr, .of_trace_eq rfl⟩
  | _ => exact .of_trace_eq rfl

/-- In the invariant the outstanding request is the row's. -/
theorem State.Inv.lists {s : State} (h : s.Inv) : Lists s s := by
  refine ⟨rfl, fun _ => rfl, fun r hr => ?_, .of_trace_eq rfl⟩
  cases hb : s.busy with
  | false => simp [h.control.idle_quiet hb] at hr
  | true => exact emittable_of_rowRequest s s.fb r (fun _ => rfl) ((h.control.waiting hb).2 ▸ hr)

/-- Settles O52, by cases on what the step does. -/
theorem onlyTheListedRequestsAreIssued : Obligations.OnlyTheListedRequestsAreIssued := by
  intro s t h hs
  cases step_effect s t h.control hs with
  | reset l hi => exact (h.lists.withHost (if s.busy then s.offered else none) l).recorded fun _ => none
  | outside o m l hr hq hm => exact RecordsListed.of_trace_eq rfl
  | illegal w why hr hb ho hd => exact RecordsListed.of_trace_eq rfl
  | command w i t hr hb ho hd he =>
    have hrec : RecordsListed (acceptWord w s) t := recordsListed_of_commandEffect he (h.control.idle_quiet hb)
    exact hrec
  | answer b l hi hb ho => exact (h.lists.answered b l).run

end Sys2Proof.Machine
end

section
/-! ## The framebuffer commands

What each command answers in READY and outside it, said once per outcome; then what the framebuffer it leaves reads as. -/

namespace Sys2Proof.Machine

/-! ### The checks in front of the rules -/

/-- The ready check comes before every operand check (60_exceptions.md R201, R202). -/
theorem exec_of_not_ready (i : Instr) (s : State) (hi : i ≠ .init) (hh : i ≠ .halt) (hd : s.drv ≠ .ready) :
    exec i s = .next (s.responded .errState 0x00#8) := by
  cases i with
  | init => exact absurd rfl hi
  | halt => exact absurd rfl hh
  | _ => exact if_neg hd

theorem inPanel_eq_false (x y : Nat) (h : 240 ≤ x ∨ 160 ≤ y) : inPanel x y = false := by
  rw [← Bool.not_eq_true, inPanel_iff]
  omega

/-! ### The rules in READY -/

/-- A pattern written into a pixel's field (40_framebuffer.md R104). -/
def Memory.writePixel (m : Memory) (x y : Nat) (p : Byte) : Memory :=
  m.write (pixAddr x y) (withField (m.read (pixAddr x y)) (pixShift x) p)

/-- The framebuffer after a LOAD_IMAGE (40_framebuffer.md R105). -/
def imageFrame (s : State) : Memory := Memory.ofFn (imageByte s) 0 20480

theorem exec_clear_zero_all (s : State) : exec (.clear 0 160) s = exec .blank s := rfl

section
variable {s : State} (hd : s.drv = .ready)
include hd

theorem exec_clear_of_bad_rows {rs re : Nat} (h : ¬(rs ≤ re ∧ re ≤ 160)) :
    exec (.clear rs re) s = .next (s.responded .errBounds 0x00#8) := by
  simp only [exec, execClear, requireReady_of_ready s _ hd, if_neg h, raise, complete_eq_responded]

theorem exec_clear_rows {rs re : Nat} (h : rs ≤ re ∧ re ≤ 160) :
    exec (.clear rs re) s = .next ((s.zeroFb (128 * rs) (128 * re)).responded .ok 0x00#8) := by
  simp only [exec, execClear, requireReady_of_ready s _ hd, if_pos h, ok, complete_eq_responded]

theorem exec_blank : exec .blank s = .next ((s.zeroFb 0 20480).responded .ok 0x00#8) := if_pos hd

theorem exec_setPixel_outside {x y : Nat} (p : Byte) (h : 240 ≤ x ∨ 160 ≤ y) :
    exec (.setPixel x y p) s = .next (s.responded .errBounds 0x00#8) := by
  simp [exec, execSetPixel, requireReady_of_ready s _ hd, inPanel_eq_false x y h, raise, complete_eq_responded]

theorem exec_setPixel_illegal {x y : Nat} {p : Byte} (hx : x < 240) (hy : y < 160) (hp : legalPat p = false) :
    exec (.setPixel x y p) s = .next (s.responded .errLevel 0x00#8) := by
  simp [exec, execSetPixel, requireReady_of_ready s _ hd, (inPanel_iff x y).2 ⟨hx, hy⟩, hp, raise, complete_eq_responded]

theorem exec_setPixel_legal {x y : Nat} {p : Byte} (hx : x < 240) (hy : y < 160) (hp : legalPat p = true) :
    exec (.setPixel x y p) s = .next { s.responded .ok 0x00#8 with fb := s.fb.writePixel x y p } := by
  simp [exec, execSetPixel, requireReady_of_ready s _ hd, (inPanel_iff x y).2 ⟨hx, hy⟩, hp, ok, complete, State.responded,
    Memory.writePixel]

theorem exec_loadImage_of_bad_length {len : Nat} (h : len ≠ 9600) :
    exec (.loadImage len) s = .next (s.responded .errLength 0x00#8) := by
  simp only [exec, execLoadImage, requireReady_of_ready s _ hd, if_neg h, raise, complete_eq_responded]

theorem exec_loadImage :
    exec (.loadImage 9600) s =
      .next { s.responded .ok 0x00#8 with fb := imageFrame s, dirtyMin := 0#16, dirtyMax := 159#16 } := if_pos hd

theorem exec_readByte_outside {addr : Nat} (h : 20480 ≤ addr) :
    exec (.readByte addr) s = .next (s.responded .errBounds 0x00#8) := by
  simp only [exec, execReadByte, requireReady_of_ready s _ hd, if_neg (Nat.not_lt.2 h), raise, complete_eq_responded]

theorem exec_readByte {addr : Nat} (h : addr < 20480) :
    exec (.readByte addr) s = .next (s.responded .ok (s.fb.read addr)) := by
  simp only [exec, execReadByte, requireReady_of_ready s _ hd, if_pos h, ok, complete_eq_responded]

theorem exec_getPixel_outside {x y : Nat} (h : 240 ≤ x ∨ 160 ≤ y) :
    exec (.getPixel x y) s = .next (s.responded .errBounds 0x00#8) := by
  simp [exec, execGetPixel, requireReady_of_ready s _ hd, inPanel_eq_false x y h, raise, complete_eq_responded]

theorem exec_getPixel {x y : Nat} (hx : x < 240) (hy : y < 160) :
    exec (.getPixel x y) s = .next (s.responded .ok (fieldOf (s.fb.read (pixAddr x y)) (pixShift x))) := by
  simp [exec, execGetPixel, requireReady_of_ready s _ hd, (inPanel_iff x y).2 ⟨hx, hy⟩, ok, complete_eq_responded]

end

/-! ### CLEAR, BLANK and the reads -/

/-- Settles O16: a zeroed range reads as 0x00 inside and as before outside. -/
theorem clearZeroesExactlyItsRows : Obligations.ClearZeroesExactlyItsRows := by
  intro rs re s
  refine ⟨fun hrs hre => decode_encode (.clear rs re) (by simp [Instr.WellFormed, Instr.wellFormed, hrs, hre]),
    exec_of_not_ready _ s nofun nofun, fun hd => exec_clear_of_bad_rows hd, fun hd hle hre => ?_, exec_clear_zero_all s⟩
  refine ⟨_, exec_clear_rows hd ⟨hle, hre⟩, rfl, fun y b hy hy' hb => ?_, fun a ha => ?_⟩
  · exact (Memory.read_zeroRange _ _ _ _).trans (if_pos (by omega))
  · exact (Memory.read_zeroRange _ _ _ _).trans (if_neg (by omega))

/-- Settles O17: the zeroed range is the whole framebuffer. -/
theorem blankZeroesTheFrame : Obligations.BlankZeroesTheFrame := by
  refine ⟨decode_encode .blank rfl, fun s => ⟨exec_of_not_ready _ s nofun nofun, fun hd => ?_⟩⟩
  have hread (a : Nat) : (s.fb.zeroRange 0 20480).read a = if a < 20480 then 0x00#8 else s.fb.read a := by
    simp [Memory.read_zeroRange]
  refine ⟨_, exec_blank hd, rfl, hread, fun addr ha => ?_, exec_blank hd⟩
  rw [exec_readByte (by exact hd) ha]
  exact congrArg (fun v => Host.Outcome.next (State.responded .ok v _)) ((hread addr).trans (if_pos ha))

/-- Settles O21: the clauses are the command's checks in their order. -/
theorem readByteReturnsTheByte : Obligations.ReadByteReturnsTheByte := fun addr s =>
  ⟨fun ha => decode_encode (.readByte addr) (by simp [Instr.WellFormed, Instr.wellFormed, ha]),
    exec_of_not_ready _ s nofun nofun,
    fun hd => exec_readByte_outside hd, fun hd => exec_readByte hd⟩

/-- Settles O22: the clauses are the command's checks in their order. -/
theorem getPixelReturnsTheField : Obligations.GetPixelReturnsTheField := fun x y s =>
  ⟨fun hx hy => decode_encode (.getPixel x y) (by simp [Instr.WellFormed, Instr.wellFormed, hx, hy]),
    exec_of_not_ready _ s nofun nofun,
    fun hd => exec_getPixel_outside hd, fun hd => exec_getPixel hd⟩

/-! ### SET_PIXEL -/

theorem getLsbD_fieldMask (k : Nat) : (0x1C#8).getLsbD k = decide (2 ≤ k ∧ k ≤ 4) := by
  by_cases hk : k < 8
  · interval_cases k <;> rfl
  · rw [BitVec.getLsbD_of_ge _ _ (by omega)]
    exact (decide_eq_false (by omega)).symm

theorem getLsbD_shiftedMask (s : Nat) {k : Nat} (hk : k < 8) :
    (0x1C#8 <<< s).getLsbD k = decide (s + 2 ≤ k ∧ k ≤ s + 4) := by
  rw [BitVec.getLsbD_shiftLeft, getLsbD_fieldMask, Bool.eq_iff_iff]
  simp only [Bool.and_eq_true, Bool.not_eq_true', decide_eq_true_eq, decide_eq_false_iff_not]
  omega

/-- A legal pattern has no bit outside bits 2 to 4 (30_encoding.md R79). -/
theorem and_fieldMask_of_legalPat {p : Byte} (hp : legalPat p = true) : p &&& 0x1C#8 = p := by
  rw [legalPat_iff] at hp
  revert p
  decide

/-- A byte with a field replaced by a legal pattern has the pattern's bits in the field and its own bits outside. -/
theorem getLsbD_withField (b : Byte) (s : Nat) {p : Byte} (hp : legalPat p = true) {k : Nat} (hk : k < 8) :
    (withField b s p).getLsbD k = if s + 2 ≤ k ∧ k ≤ s + 4 then p.getLsbD (k - s) else b.getLsbD k := by
  have hshift : p <<< s = (p <<< s) &&& (0x1C#8 <<< s) := by
    rw [← BitVec.shiftLeft_and_distrib, and_fieldMask_of_legalPat hp]
  rw [withField, hshift, BitVec.getLsbD_or, BitVec.getLsbD_and, BitVec.getLsbD_and, BitVec.getLsbD_not,
    getLsbD_shiftedMask s hk, BitVec.getLsbD_shiftLeft]
  by_cases h : s + 2 ≤ k ∧ k ≤ s + 4
  · rw [if_pos h, decide_eq_true h]
    simp [hk, show ¬k < s by omega]
  · rw [if_neg h, decide_eq_false h]
    simp [hk]

/-- A bit of a field in pattern position. -/
theorem getLsbD_fieldOf (b : Byte) (s k : Nat) :
    (fieldOf b s).getLsbD k = (b.getLsbD (s + k) && decide (2 ≤ k ∧ k ≤ 4)) := by
  rw [fieldOf, BitVec.getLsbD_and, BitVec.getLsbD_ushiftRight, getLsbD_fieldMask]

theorem pixShift_le (x : Nat) : pixShift x ≤ 3 := by
  unfold pixShift
  omega

/-- The written field reads back. -/
theorem fieldOf_withField_same (b : Byte) (s : Nat) {p : Byte} (hs : s ≤ 3) (hp : legalPat p = true) :
    fieldOf (withField b s p) s = p := by
  conv_rhs => rw [← and_fieldMask_of_legalPat hp]
  refine BitVec.eq_of_getLsbD_eq fun k _ => ?_
  rw [getLsbD_fieldOf, BitVec.getLsbD_and, getLsbD_fieldMask]
  by_cases h : 2 ≤ k ∧ k ≤ 4
  · rw [getLsbD_withField b s hp (by omega), if_pos (by omega), Nat.add_sub_cancel_left]
  · simp [h]

/-- A field three or more bits away is untouched. -/
theorem fieldOf_withField_other (b : Byte) (s s' : Nat) {p : Byte} (hs' : s' ≤ 3) (h : s + 3 ≤ s' ∨ s' + 3 ≤ s)
    (hp : legalPat p = true) : fieldOf (withField b s p) s' = fieldOf b s' := by
  refine BitVec.eq_of_getLsbD_eq fun k _ => ?_
  rw [getLsbD_fieldOf, getLsbD_fieldOf]
  by_cases hk : 2 ≤ k ∧ k ≤ 4
  · rw [getLsbD_withField b s hp (by omega), if_neg (by omega)]
  · simp [hk]

/-- A pixel's byte is written, every other byte reads as before. -/
theorem read_writePixel {m : Memory} (hm : m.wf) (x y : Nat) (p : Byte) (a : Nat) :
    (m.writePixel x y p).read a =
      if a = pixAddr x y then withField (m.read a) (pixShift x) p else m.read a := by
  rw [Memory.writePixel, Memory.read_write _ _ _ hm]
  by_cases h : a = pixAddr x y
  · rw [if_pos h.symm, if_pos h, h]
  · rw [if_neg (Ne.symm h), if_neg h]

/-- Settles O18: the clauses are the command's checks in their order, the last with the write read back. -/
theorem setPixelWritesOneField : Obligations.SetPixelWritesOneField := fun x y p s =>
  ⟨fun hx hy => decode_encode (.setPixel x y p) (by simp [Instr.WellFormed, Instr.wellFormed, hx, hy]),
    exec_of_not_ready _ s nofun nofun,
    fun hd => exec_setPixel_outside hd p,
    fun hd hx hy hp => exec_setPixel_illegal hd hx hy (Bool.eq_false_iff.2 (mt (legalPat_iff p).1 hp)),
    fun hd hx hy hp hm =>
      ⟨_, exec_setPixel_legal hd hx hy ((legalPat_iff p).2 hp), rfl, fun a => read_writePixel hm x y p a⟩⟩

/-- Settles O19: bits 0 to 7 of the pixel's byte are the pattern's or its own; higher bits of a byte are no bits. -/
theorem setPixelKeepsEveryOtherBit : Obligations.SetPixelKeepsEveryOtherBit := by
  intro x y p s hd hx hy hp hm
  rw [← legalPat_iff] at hp
  refine ⟨_, exec_setPixel_legal hd hx hy hp, fun a k hk => ?_⟩
  by_cases hk8 : k < 8
  · rw [read_writePixel hm x y p a]
    split
    next ha => exact (getLsbD_withField _ _ hp hk8).trans (if_neg fun hf => hk ⟨ha, hf⟩)
    next => rfl
  · rw [BitVec.getLsbD_of_ge _ _ (by omega), BitVec.getLsbD_of_ge _ _ (by omega)]

theorem neighbour_div_two (x : Nat) : (x ^^^ 1) / 2 = x / 2 := (Nat.xor_div_two).trans (Nat.xor_zero _)

/-- The neighbour (x ^ 1, y) has the other field of the same byte. -/
theorem neighbour_field (x y : Nat) :
    pixAddr (x ^^^ 1) y = pixAddr x y ∧ (pixShift x + 3 ≤ pixShift (x ^^^ 1) ∨ pixShift (x ^^^ 1) + 3 ≤ pixShift x) := by
  have hdiv := neighbour_div_two x
  have hmod : (x ^^^ 1) % 2 = (x + 1) % 2 := Nat.xor_mod_two_eq
  simp only [pixAddr, pixShift]
  omega

theorem neighbour_lt (x : Nat) (hx : x < 240) : x ^^^ 1 < 240 := by
  have hdiv := neighbour_div_two x
  omega

/-- Settles O20: the written field reads back, and the neighbour's is the other field of the byte. -/
theorem setPixelThenGetPixelReadsBack : Obligations.SetPixelThenGetPixelReadsBack := by
  intro x y p s hd hx hy hp hm
  rw [← legalPat_iff] at hp
  obtain ⟨haddr, hshift⟩ := neighbour_field x y
  have hx' := neighbour_lt x hx
  refine ⟨_, _, _, _, exec_setPixel_legal hd hx hy hp, exec_getPixel (by exact hd) hx hy, rfl, ?_, exec_getPixel hd hx' hy,
    exec_getPixel (by exact hd) hx' hy, rfl, rfl, ?_⟩
  · rw [responded_rspData, read_writePixel hm, if_pos rfl, fieldOf_withField_same _ _ (pixShift_le x) hp]
  · rw [responded_rspData, responded_rspData, haddr, read_writePixel hm, if_pos rfl,
      fieldOf_withField_other _ _ _ (pixShift_le _) hshift hp]

/-! ### The conversion -/

theorem code_levelOfCode (c : BitVec 2) : (levelOfCode c).code = c := by
  revert c
  decide

/-- A sample is two bits of the source byte. -/
theorem sampleOf_code (v : Byte) :
    (sampleOf v .a).code.toNat = v.toNat % 4 ∧ (sampleOf v .b).code.toNat = v.toNat / 4 % 4 ∧
    (sampleOf v .c).code.toNat = v.toNat / 16 % 4 ∧ (sampleOf v .d).code.toNat = v.toNat / 64 := by
  have hv := v.isLt
  simp only [sampleOf, code_levelOfCode, BitVec.extractLsb'_toNat, Nat.shiftRight_eq_div_pow, true_and]
  omega

/-- Every LOAD_MAP places four equal samples alike. -/
theorem conv_of_equal_samples (m : LoadMap) (v : Byte) (l : Level) (h : ∀ x, sampleOf v x = l) :
    conv m v = (packInverted l l, packInverted l l) := by
  simp only [conv, h]

theorem conv_zero (m : LoadMap) : conv m 0x00#8 = (0xFF#8, 0xFF#8) :=
  conv_of_equal_samples m _ .black fun x => by cases x <;> rfl

/-- Settles O24: two packed bytes of complemented patterns, whatever the samples. -/
theorem conversionFollowsTheLoadMap : Obligations.ConversionFollowsTheLoadMap := by
  refine ⟨sampleOf_code, fun m v => ?_, fun m => ⟨conv_zero m, ?_, ?_, ?_⟩, by decide⟩
  · exact ⟨fieldOf_packInverted_even _ _, fieldOf_packInverted_odd _ _, fieldOf_packInverted_even _ _,
      fieldOf_packInverted_odd _ _, lowBits_packInverted _ _, lowBits_packInverted _ _⟩
  · exact conv_of_equal_samples m _ .darkGrey fun x => by cases x <;> rfl
  · exact conv_of_equal_samples m _ .lightGrey fun x => by cases x <;> rfl
  · exact conv_of_equal_samples m _ .white fun x => by cases x <;> rfl

/-! ### LOAD_IMAGE -/

theorem imageByte_padding (s : State) (i : Nat) {b : Nat} (hb : b < 8) : imageByte s (128 * i + b) = 0xFF#8 := by
  have hcol : (128 * i + b) % 128 = b := by omega
  simp [imageByte, hcol, hb]

theorem imageByte_first (s : State) (i : Nat) {j : Nat} (hj : j < 60) :
    imageByte s (128 * i + 8 + 2 * j) = (conv s.params.loadMap (s.src.read (60 * i + j))).1 := by
  have hrow : (128 * i + 8 + 2 * j) / 128 = i := by omega
  have hcol : (128 * i + 8 + 2 * j) % 128 = 8 + 2 * j := by omega
  simp [imageByte, srcRead, hrow, hcol]

theorem imageByte_second (s : State) (i : Nat) {j : Nat} (hj : j < 60) :
    imageByte s (128 * i + 8 + 2 * j + 1) = (conv s.params.loadMap (s.src.read (60 * i + j))).2 := by
  have hrow : (128 * i + 8 + 2 * j + 1) / 128 = i := by omega
  have hcol : (128 * i + 8 + 2 * j + 1) % 128 = 8 + (2 * j + 1) := by omega
  have hhalf : (2 * j + 1) / 2 = j := by omega
  simp [imageByte, srcRead, hrow, hcol, hhalf]

/-- A pixel byte of a row is one of the two bytes of a source byte of the row. -/
theorem pixel_byte_cases (i b : Nat) (h8 : 8 ≤ b) (hb : b < 128) :
    ∃ j < 60, 128 * i + b = 128 * i + 8 + 2 * j ∨ 128 * i + b = 128 * i + 8 + 2 * j + 1 :=
  ⟨(b - 8) / 2, by omega, by omega⟩

/-- A pixel byte is two complemented patterns in one byte. -/
theorem imageByte_pixel (s : State) (i b : Nat) (h8 : 8 ≤ b) (hb : b < 128) :
    ∃ even odd, imageByte s (128 * i + b) = packInverted even odd := by
  obtain ⟨j, hj, h | h⟩ := pixel_byte_cases i b h8 hb
  · exact ⟨_, _, h ▸ imageByte_first s i hj⟩
  · exact ⟨_, _, h ▸ imageByte_second s i hj⟩

/-- The 16 bytes of two levels. -/
theorem packInverted_mem (even odd : Level) :
    packInverted even odd ∈
      [0x03#8, 0x0F#8, 0x17#8, 0x1F#8, 0x63#8, 0x6F#8, 0x77#8, 0x7F#8,
       0xA3#8, 0xAF#8, 0xB7#8, 0xBF#8, 0xE3#8, 0xEF#8, 0xF7#8, 0xFF#8] := by
  cases even <;> cases odd <;> decide

theorem read_imageFrame (s : State) {a : Nat} (ha : a < 20480) : (imageFrame s).read a = imageByte s a :=
  (Memory.read_ofFn _ _ _ _).trans (if_pos (by omega))

theorem read_imageFrame_padding (s : State) {i b : Nat} (hi : i < 160) (hb : b < 8) :
    (imageFrame s).read (128 * i + b) = 0xFF#8 := by
  rw [read_imageFrame s (by omega), imageByte_padding s i hb]

theorem read_imageFrame_first (s : State) {i j : Nat} (hi : i < 160) (hj : j < 60) :
    (imageFrame s).read (128 * i + 8 + 2 * j) = (conv s.params.loadMap (s.src.read (60 * i + j))).1 := by
  rw [read_imageFrame s (by omega), imageByte_first s i hj]

theorem read_imageFrame_second (s : State) {i j : Nat} (hi : i < 160) (hj : j < 60) :
    (imageFrame s).read (128 * i + 8 + 2 * j + 1) = (conv s.params.loadMap (s.src.read (60 * i + j))).2 := by
  rw [read_imageFrame s (by omega), imageByte_second s i hj]

/-- Settles O23: the frame read at a padding byte and at the two bytes of a source byte. -/
theorem loadImageConvertsTheFrame : Obligations.LoadImageConvertsTheFrame := by
  intro len s
  refine ⟨fun hlen => decode_encode (.loadImage len) (by simp [Instr.WellFormed, Instr.wellFormed, hlen]),
    exec_of_not_ready _ s nofun nofun,
    fun hd => exec_loadImage_of_bad_length hd, fun hd hlen => ?_⟩
  subst hlen
  exact ⟨_, exec_loadImage hd, rfl, fun i b hi hb => read_imageFrame_padding s hi hb,
    fun i j hi hj => ⟨read_imageFrame_first s hi hj, read_imageFrame_second s hi hj⟩⟩

/-- Settles O25: the fields of the two bytes of a source byte, and the values of two levels packed. -/
theorem loadImageOutputShape : Obligations.LoadImageOutputShape := by
  intro s hd
  refine ⟨_, exec_loadImage hd, rfl, fun i b hi hb => read_imageFrame_padding s hi hb, fun i j hi hj => ?_,
    fun i b hi h8 hb => ?_⟩
  · rw [read_imageFrame_first s hi hj, read_imageFrame_second s hi hj]
    exact ⟨⟨fieldOf_packInverted_even _ _, fieldOf_packInverted_odd _ _⟩,
      ⟨fieldOf_packInverted_even _ _, fieldOf_packInverted_odd _ _⟩⟩
  · obtain ⟨even, odd, h⟩ := imageByte_pixel s i b h8 hb
    rw [read_imageFrame s (by omega), h]
    exact ⟨lowBits_packInverted even odd, packInverted_mem even odd⟩

/-- Every byte of the frame of a zero image is the padding value (95_test_vectors.md S8). -/
theorem imageByte_of_zero_image (s : State) (h : ∀ a, a < 9600 → s.src.read a = 0x00#8) (i b : Nat) (hi : i < 160)
    (hb : b < 128) : imageByte s (128 * i + b) = 0xFF#8 := by
  by_cases h8 : b < 8
  · exact imageByte_padding s i h8
  · obtain ⟨j, hj, ha | ha⟩ := pixel_byte_cases i b (by omega) hb
    · rw [ha, imageByte_first s i hj, h _ (by omega), conv_zero]
    · rw [ha, imageByte_second s i hj, h _ (by omega), conv_zero]

/-- Settles O26: byte a is byte a % 128 of row a / 128. -/
theorem zeroImageFillsTheFrameWithFF : Obligations.ZeroImageFillsTheFrameWithFF := by
  intro s hd h
  refine ⟨_, exec_loadImage hd, rfl, by simp [dirtyWord], fun a ha => ?_⟩
  have hbyte := imageByte_of_zero_image s h (a / 128) (a % 128) (by omega) (by omega)
  rw [Nat.div_add_mod] at hbyte
  exact (read_imageFrame s ha).trans hbyte

/-! ### The byte loops -/

theorem writeEach_succ (f : Nat → Byte) (start n : Nat) (m : Memory) :
    writeEach f start (n + 1) m = (writeEach f start n m).write (start + n) (f (start + n)) := by
  rw [writeEach, List.range_succ, List.foldl_append]
  rfl

theorem wf_writeEach (f : Nat → Byte) (start n : Nat) {m : Memory} (hm : m.wf) : (writeEach f start n m).wf := by
  induction n with
  | zero => exact hm
  | succ n ih => rw [writeEach_succ]; exact Memory.wf_write _ _ ih

/-- After the loop its addresses read as what it wrote, every other address as before. -/
theorem read_writeEach (f : Nat → Byte) (start n : Nat) {m : Memory} (hm : m.wf) (a : Nat) :
    (writeEach f start n m).read a = if start ≤ a ∧ a < start + n then f a else m.read a := by
  induction n with
  | zero => exact (if_neg (by omega)).symm
  | succ n ih =>
    rw [writeEach_succ, Memory.read_write _ _ _ (wf_writeEach f start n hm), ih]
    by_cases h : start + n = a
    · rw [if_pos h, h, if_pos (by omega)]
    · rw [if_neg h]
      exact if_congr (by omega) rfl rfl

theorem zeroRange_eq_writeEach {m : Memory} (hm : m.wf) {lo hi : Nat} (h : lo ≤ hi) :
    m.zeroRange lo hi = writeEach (fun _ => 0x00#8) lo (hi - lo) m := by
  refine Memory.ext_of_read (Memory.wf_zeroRange lo hi hm) (wf_writeEach _ _ _ hm) fun a => ?_
  rw [Memory.read_zeroRange, read_writeEach _ _ _ hm, Nat.add_sub_cancel' h]

/-- A loop over a whole space leaves the memory its bytes give. -/
theorem ofFn_eq_writeEach (f : Nat → Byte) (n : Nat) {m : Memory} (hm : m.wf) (hb : m.below n) :
    Memory.ofFn f 0 n = writeEach f 0 n m := by
  refine Memory.ext_of_read (Memory.wf_ofFn f n 0) (wf_writeEach _ _ _ hm) fun a => ?_
  rw [Memory.read_ofFn, read_writeEach _ _ _ hm]
  by_cases ha : a < n
  · rw [if_pos (by omega), if_pos (by omega)]
  · rw [if_neg (by omega), if_neg (by omega), Memory.read_of_below m n a hb (by omega)]

/-- Settles O30: the range and the loop read alike and are both canonical. -/
theorem clearIsTheLoopOfByteWrites : Obligations.ClearIsTheLoopOfByteWrites := by
  intro rs re s hd hle hre hm
  rw [exec_clear_rows hd ⟨hle, hre⟩, Nat.mul_sub, ← zeroRange_eq_writeEach hm (Nat.mul_le_mul_left 128 hle)]
  rfl

/-- Settles O31: the loop overwrites every byte FB can list. -/
theorem loadImageIsTheLoopOfByteWrites : Obligations.LoadImageIsTheLoopOfByteWrites := by
  intro s hd hm
  rw [exec_loadImage hd, imageFrame, ofFn_eq_writeEach _ _ hm.fb_wf hm.fb_below]

end Sys2Proof.Machine
end

section
/-! ## The sequencer's rows and runs

A waiting command's answer takes its row to the next one (`step_run`, `step_to_row`). A run of REFRESH ends in `State.refreshEnd`
from whichever of its rows it starts, and a run of INIT whose power-on writes succeed passes through `State.initAfter`. -/

namespace Sys2Proof.Machine

/-! ### HALT, and INIT outside UNINIT -/

/-- Settles O32: the word is HALT's encoding. -/
theorem haltOnlyResponds : Obligations.HaltOnlyResponds :=
  ⟨decode_encode .halt rfl, fun _ => rfl⟩

/-- An INIT that passed its check, before its first row (41_sequencer.md R151). -/
def State.initStart (s : State) : State := { s with drv := .initializing, busy := true, seq := .initBus }

theorem exec_init_of_uninit {s : State} (hd : s.drv = .uninit) : exec .init s = .next (runSequencer s.initStart) := if_pos hd

/-- Settles O36: INIT's check fails. -/
theorem initOutsideUninitIsRejected : Obligations.InitOutsideUninitIsRejected :=
  fun _ hd => if_neg hd

/-! ### Which steps answer a next state -/

/-- No command's meaning is a stop (60_exceptions.md R200). -/
theorem exec_answers_next (i : Instr) (s : State) : ∃ t, exec i s = .next t := by
  cases i with
  | init =>
    by_cases hd : s.drv = .uninit
    · exact ⟨_, exec_init_of_uninit hd⟩
    · exact ⟨_, initOutsideUninitIsRejected s hd⟩
  | halt => exact ⟨_, rfl⟩
  | clear | blank | setPixel | loadImage | refresh | readByte | getPixel =>
    by_cases hd : s.drv = .ready
    · exact ⟨_, if_pos hd⟩
    · exact ⟨_, if_neg hd⟩

/-- An idle block's step is an acceptance, a move of the outside world, or nothing. -/
theorem step_answers_next_of_idle (s : State) (hb : s.busy = false) (hr : s.inputs.head? ≠ some .reset) :
    ∃ t, step s = .next t := by
  cases ho : s.offered with
  | none =>
    rcases hi : s.inputs with _ | ⟨i, l⟩
    · exact ⟨s, step_idle_nothing s hb ho hi⟩
    · exact ⟨_, step_idle_input s i l hb ho hi⟩
  | some w =>
    cases hd : decode w with
    | illegal why => exact ⟨_, step_illegal s w why hd hb ho hr⟩
    | command i =>
      rw [step_accept s w i hb ho hr hd]
      exact exec_answers_next i _

/-- A waiting block refuses nothing but a write of SRC. -/
theorem waitingStep_answers_next (s : State) (hw : ∀ a v l, s.inputs ≠ .srcWrite a v :: l) : ∃ t, waitingStep s = .next t := by
  unfold waitingStep
  rcases hi : s.inputs with _ | ⟨i, l⟩
  · exact ⟨s, rfl⟩
  · cases i with
    | srcWrite a v => exact absurd hi (hw a v l)
    | offer | txDone | reset | pass => exact ⟨_, rfl⟩

/-- In the invariant a busy block waits on the request of its row. -/
theorem State.Inv.waits {s : State} (h : s.Inv) (hb : s.busy = true) : ∃ r, s.outstanding = some r ∧ rowRequest s = some r := by
  obtain ⟨hw, ho⟩ := h.control.waiting hb
  obtain ⟨r, hr⟩ := Option.isSome_iff_exists.1 hw
  exact ⟨r, ho.trans hr, hr⟩

/-- Settles O51: a reset, an idle block and a waiting block in turn; no other position meets the invariant. -/
theorem stepsAnswerNextButForBusySrcWrites : Obligations.StepsAnswerNextButForBusySrcWrites := by
  intro s h
  refine ⟨fun hb => ?_, fun hw => ?_⟩
  · obtain ⟨r, ho, hrow⟩ := h.waits hb
    obtain ⟨-, -, -, hsrc⟩ := waitingBlockTakesNoCommand s r hb ho hrow
    exact hsrc
  · by_cases hr : s.inputs.head? = some .reset
    · obtain ⟨l, hi⟩ := List.head?_eq_some_iff.1 hr
      exact ⟨_, step_reset s l hi⟩
    · cases hb : s.busy with
      | false => exact step_answers_next_of_idle s hb hr
      | true =>
        obtain ⟨r, ho, hrow⟩ := h.waits hb
        rw [step_waiting s r hb ho (by rw [hrow]; rfl)]
        exact waitingStep_answers_next s (hw.resolve_left (by simp [hb]))

/-! ### One answer at a time -/

/-- What INIT_ZERO leaves (40_framebuffer.md R101). -/
theorem read_zeroedFrame (m : Memory) (x : Nat) :
    (m.zeroRange 0 20480).read x = if x < 20480 then 0x00#8 else m.read x := by
  simp [Memory.read_zeroRange]

theorem chunk_lt_of_castSucc {s : State} {k : Fin 40} (h : s.chunk = k.castSucc) : s.chunk.val < 40 := by
  rw [h]
  exact k.isLt

/-- The next chunk, CHUNK as a number below 40 (41_sequencer.md R154). -/
theorem nextChunk_of_castSucc (s : State) (k : Fin 40) (h : s.chunk = k.castSucc) :
    nextChunk s = { s with chunk := k.succ } := by
  rw [nextChunk, dif_pos (chunk_lt_of_castSucc h)]
  simp only [h]
  rfl

/-- The row of a chunk that is still to be sent. -/
theorem rowRequest_chunk (s : State) (k : Fin 40) (hq : s.seq = .refData) (h : s.chunk = k.castSucc) :
    rowRequest s = some (chunkWrite s.fb k.val) := by
  rw [rowRequest_refData s hq (chunk_lt_of_castSucc h), h]
  rfl

theorem rowAction_chunk (s : State) (k : Fin 40) (hq : s.seq = .refData) (h : s.chunk = k.castSucc) :
    rowAction s = (s.setDc .high).issue (chunkWrite s.fb k.val) := by
  rw [rowAction_refData s hq (chunk_lt_of_castSucc h), transmit, length_chunkPayload, h]
  rfl

theorem rowAction_window (s : State) (hq : s.seq = .refWindow) :
    rowAction s = (s.setDc .low).issue (.transmit s.params.windowBlock.toList 112 .low) := by
  rw [rowAction_refWindow s hq, transmit, Vector.length_toList]
  rfl

/-- With no answer at hand a run from INIT_LINES waits at INIT_RST_HI. -/
theorem run_initLines_waits (s : State) (ho : s.outstanding = none) (hq : s.seq = .initLines)
    (hl : ∀ b l, s.inputs ≠ .txDone b :: l) :
    runSequencer s =
      { s with
        dc := .low, rst := .high, fb := s.fb.zeroRange 0 20480, dirtyMin := 0xFFFF#16, dirtyMax := 0xFFFF#16,
        seq := .initRstHi, outstanding := some (.sleep 80) } := by
  have hwaits := runSequencer_waits ((fbInit ((s.setDc .low).setRst .high)).goto .initRstHi) (.sleep 80) ho rfl hl
  rw [run_initLines s ho hq, hwaits, rowAction_initRstHi _ rfl]
  simp [State.issue, State.goto, fbInit, State.zeroFb, State.setRst, State.setDc]

/-- With no answer at hand a run whose chunks are all sent waits at REF_UNBLANK. -/
theorem run_refData_end_waits (s : State) (ho : s.outstanding = none) (hq : s.seq = .refData) (hk : s.chunk = 40)
    (hl : ∀ b l, s.inputs ≠ .txDone b :: l) :
    runSequencer s = writeCd 0x29#8 false (s.goto .refUnblank) := by
  rw [runSequencer_refData_end s ho hq (by simp [hk])]
  exact runSequencer_waits (s.goto .refUnblank) _ ho (rowRequest_refUnblank _ rfl) hl

/-- An answer issues no request itself: that is the next row's. -/
theorem rowAnswered_outstanding (b : Bool) (s : State) : (rowAnswered b s).outstanding = s.outstanding := by
  obtain ⟨-, hport, -⟩ := rowAnswered_frame b s
  exact hport

section
variable {s : State} {ok : Bool} {rest : List Input} (hb : s.busy = true) (ho : s.outstanding = rowRequest s)
  (hi : s.inputs = .txDone ok :: rest)
include hb ho hi

/-- A waiting command's answer: the run goes on from t, which is what the answer makes of the row. -/
theorem step_run {r : Request} {t u : State} (hr : rowRequest s = some r)
    (ht : rowAnswered ok (s.tookAnswer r s.rst ok rest) = t) (hu : runSequencer t = u) : step s = .next u := by
  rw [step_answer s r ok rest hb (ho.trans hr) (by rw [hr]; rfl) hi, ← hu, ← ht]
  rfl

/-- The last answer of a command completes it. -/
theorem step_to_end {r : Request} {t : State} (hr : rowRequest s = some r)
    (ht : rowAnswered ok (s.tookAnswer r s.rst ok rest) = t) (hq : t.seq = .idle) : step s = .next t := by
  have hquiet : t.outstanding = none := ht ▸ rowAnswered_outstanding ok _
  exact step_run hb ho hi hr ht (runSequencer_idle t hquiet hq)

/-- One answer and no further one: the command waits at the next row. -/
theorem step_to_row {r r' : Request} {t u : State} (hl : ∀ b l, rest ≠ .txDone b :: l) (hr : rowRequest s = some r)
    (ht : rowAnswered ok (s.tookAnswer r s.rst ok rest) = t) (hr' : rowRequest t = some r') (hu : rowAction t = u) :
    step s = .next u := by
  have hquiet : t.outstanding = none := ht ▸ rowAnswered_outstanding ok _
  have hnone : ∀ b l, t.inputs ≠ .txDone b :: l := by rw [← ht, rowAnswered_inputs]; exact hl
  exact step_run hb ho hi hr ht ((runSequencer_waits t r' hquiet hr' hnone).trans hu)

end

/-- Settles O39, one row after the other. -/
theorem refreshRowsInOrder : Obligations.RefreshRowsInOrder := by
  intro s ok rest hb ho hi hl
  have hdata : ∀ k : Fin 40, s.seq = .refData → s.chunk = k.castSucc →
      rowAnswered ok (s.tookAnswer (chunkWrite s.fb k.val) s.rst ok rest) =
        { noteFailure ok (s.tookAnswer (chunkWrite s.fb k.val) s.rst ok rest) with chunk := k.succ } :=
    fun k hq hk =>
      (rowAnswered_refData (s.tookAnswer _ _ ok rest) ok hq).trans (nextChunk_of_castSucc (noteFailure ok _) k hk)
  refine ⟨fun hq => ?_, fun hq => ?_, fun k hq hk hlt => ?_, fun hq hk => ?_, fun hq => ?_⟩
  · rw [step_to_row hb ho hi hl (rowRequest_refBlank s hq) (rowAnswered_refBlank _ ok hq) (rowRequest_refWindow _ rfl)
      (rowAction_window _ rfl)]
    simp [State.issue, State.setDc, State.goto, noteFailure, State.tookAnswer, answeredEvents]
  · rw [step_to_row hb ho hi hl (rowRequest_refWindow s hq) (rowAnswered_refWindow _ ok hq) (rowRequest_chunk _ 0 rfl rfl)
      (rowAction_chunk _ 0 rfl rfl)]
    simp [State.issue, State.setDc, State.goto, noteFailure, State.tookAnswer, answeredEvents]
  · have hk' : k.succ = (⟨k.val + 1, by omega⟩ : Fin 40).castSucc := rfl
    rw [step_to_row hb ho hi hl (rowRequest_chunk s k hq hk) (hdata k hq hk) (rowRequest_chunk _ _ hq hk')
      (rowAction_chunk _ _ hq hk')]
    simp [State.issue, State.setDc, noteFailure, State.tookAnswer, answeredEvents]
  · rw [step_run hb ho hi (rowRequest_chunk s 39 hq hk) (hdata 39 hq hk) (run_refData_end_waits _ rfl hq rfl hl)]
    simp [writeCd, transmit, dcLevel, State.issue, State.setDc, State.goto, noteFailure, State.tookAnswer, answeredEvents]
  · exact step_to_end hb ho hi (rowRequest_refUnblank s hq) (rowAnswered_refUnblank _ ok hq) rfl

/-- Settles O37, one row after the other. -/
theorem initRowsInOrder : Obligations.InitRowsInOrder := by
  intro s ok rest hb ho hi hl
  refine ⟨fun hq hok => ?_, fun hq => ?_, fun hq => ?_, fun e hq he => ?_, fun e e' hq hok he he' => ?_, fun hq hok => ?_,
    fun hq hn => ?_, fun e hq hok he hn => ?_, fun e hq hok he => ?_⟩
  · subst hok
    exact ⟨_, step_run hb ho hi (rowRequest_initBus s hq) (rowAnswered_initBus _ true hq) (run_initLines_waits _ rfl rfl hl), rfl,
      read_zeroedFrame s.fb⟩
  · rw [step_to_row hb ho hi hl (rowRequest_initRstHi s hq) (rowAnswered_initRstHi _ ok hq) (rowRequest_initRstLo _ rfl)
      (rowAction_initRstLo _ rfl)]
    rfl
  · rw [step_to_row hb ho hi hl (rowRequest_initRstLo s hq) (rowAnswered_initRstLo _ ok hq) (rowRequest_initRstRel _ rfl)
      (rowAction_initRstRel _ rfl)]
    rfl
  · rw [step_to_row hb ho hi hl (rowRequest_initRstRel s hq) (rowAnswered_initRstRel _ ok hq) (rowRequest_initCmds _ e rfl he)
      (rowAction_initCmds _ e rfl he)]
    rfl
  · subst hok
    rw [step_to_row hb ho hi hl (rowRequest_initCmds s e hq he) (rowAnswered_initCmds _ true hq)
      (rowRequest_initCmds _ e' hq he') (rowAction_initCmds _ e' hq he')]
    rfl
  · subst hok
    exact step_to_end hb ho hi (rowRequest_initBus s hq) (rowAnswered_initBus _ false hq) rfl
  · rw [step_run hb ho hi (rowRequest_initRstRel s hq) (rowAnswered_initRstRel _ ok hq)
      (runSequencer_initCmds_end _ rfl rfl (congrArg List.length hn).symm)]
    rfl
  · subst hok
    have hend : s.initIdx + 1 = s.params.initSeq.length :=
      Nat.le_antisymm (List.getElem?_eq_some_iff.1 he).1 (List.getElem?_eq_none_iff.1 hn)
    rw [step_run hb ho hi (rowRequest_initCmds s e hq he) (rowAnswered_initCmds _ true hq)
      (runSequencer_initCmds_end _ rfl hq hend)]
    rfl
  · subst hok
    exact step_to_end hb ho hi (rowRequest_initCmds s e hq he) (rowAnswered_initCmds _ false hq) rfl

/-! ### A whole REFRESH -/

/-- The end of a REFRESH that has the answers `oks` still to come, to these requests, and l after them: every request is recorded,
and any failed answer, earlier or still to come, makes the response ERR_TRANSPORT_WRITE (41_sequencer.md R153, R154). -/
def State.refreshEnd (requests : List Request) (oks : List Bool) (l : List Input) (s : State) : State :=
  { s.responded (if s.werr || decide (false ∈ oks) then .errTransportWrite else .ok) 0x00#8 with
    dc := .low
    chunk := 40
    werr := s.werr || decide (false ∈ oks)
    outstanding := none
    inputs := l
    trace := s.trace ++ answeredEvents s.rst requests oks }

/-- One answered row earlier the end is the same, with that row's answer and request in front. -/
theorem refreshEnd_of_row (s : State) (r : Request) (requests : List Request) (b : Bool) (oks : List Bool) (l k : List Input)
    (dc : Pin) (q : Seq) (c : Fin 41) :
    State.refreshEnd requests oks l { noteFailure b ((s.tookAnswer r s.rst b k).setDc dc) with seq := q, chunk := c } =
      s.refreshEnd (r :: requests) (b :: oks) l := by
  have hw : (s.werr || !b || decide (false ∈ oks)) = (s.werr || decide (false ∈ b :: oks)) := by cases b <;> simp
  simp [State.refreshEnd, State.responded, noteFailure, State.tookAnswer, State.setDc, answeredEvents, hw]

theorem run_refUnblank_to_end (s : State) (b : Bool) (l : List Input) (ho : s.outstanding = none) (hq : s.seq = .refUnblank)
    (hk : s.chunk = 40) (hi : s.inputs = .txDone b :: l) :
    runSequencer s = s.refreshEnd [.transmit [0x29#8] 8 .low] [b] l := by
  have hw : decide (false ∈ [b]) = !b := by cases b <;> rfl
  rw [run_refUnblank s b l ho hq hi, State.refreshEnd, hw, ← hk]
  rfl

/-- From REF_DATA on: the chunks that are left, ascending, and the unblank command. -/
theorem run_refData_to_end (n : Nat) (s : State) (oks : List Bool) (l : List Input) (ho : s.outstanding = none)
    (hq : s.seq = .refData) (hk : s.chunk.val + n = 40) (hn : oks.length = n + 1) (hi : s.inputs = answers oks ++ l) :
    runSequencer s =
      s.refreshEnd ((List.range' s.chunk.val n).map (chunkWrite s.fb) ++ [.transmit [0x29#8] 8 .low]) oks l := by
  induction n generalizing s oks with
  | zero =>
    obtain ⟨b, rfl⟩ := List.length_eq_one_iff.1 hn
    rw [runSequencer_refData_end s ho hq (by omega)]
    exact run_refUnblank_to_end (s.goto .refUnblank) b l ho rfl (Fin.ext hk) hi
  | succ n ih =>
    obtain ⟨b, oks, rfl⟩ := List.exists_cons_of_length_eq_add_one hn
    have hk' : s.chunk.val + 1 + n = 40 := by omega
    rw [run_refData s b (answers oks ++ l) ho hq (by omega) hi]
    refine Eq.trans (ih _ oks rfl hq hk' (Nat.succ.inj hn) rfl) ?_
    exact refreshEnd_of_row s _ _ b oks l _ .high s.seq _

/-- From REF_WINDOW on: a REFRESH with the blank command suppressed. -/
theorem run_refWindow_to_end (s : State) (oks : List Bool) (l : List Input) (ho : s.outstanding = none)
    (hq : s.seq = .refWindow) (hn : oks.length = 42) (hi : s.inputs = answers oks ++ l) :
    runSequencer s = s.refreshEnd (refreshRequests true s.params s.fb) oks l := by
  obtain ⟨b, oks, rfl⟩ := List.exists_cons_of_length_eq_add_one hn
  rw [run_refWindow s b (answers oks ++ l) ho hq hi]
  refine Eq.trans (run_refData_to_end 40 _ oks l rfl rfl rfl (Nat.succ.inj hn) rfl) ?_
  exact refreshEnd_of_row s _ _ b oks l _ .low _ 0

/-- From REF_BLANK on: a whole REFRESH. -/
theorem run_refBlank_to_end (s : State) (oks : List Bool) (l : List Input) (ho : s.outstanding = none)
    (hq : s.seq = .refBlank) (hn : oks.length = 43) (hi : s.inputs = answers oks ++ l) :
    runSequencer s = s.refreshEnd (refreshRequests false s.params s.fb) oks l := by
  obtain ⟨b, oks, rfl⟩ := List.exists_cons_of_length_eq_add_one hn
  rw [run_refBlank s b (answers oks ++ l) ho hq hi]
  exact (run_refWindow_to_end _ oks l rfl rfl (Nat.succ.inj hn) rfl).trans (refreshEnd_of_row s _ _ b oks l _ .low _ s.chunk)

/-- A REFRESH that passed its check, before its first row (41_sequencer.md R153). -/
def State.refreshStart (suppress : Bool) (s : State) : State :=
  { s with werr := false, busy := true, seq := if suppress then .refWindow else .refBlank }

theorem exec_refresh_of_ready {s : State} (suppress : Bool) (hd : s.drv = .ready) :
    exec (.refresh suppress) s = .next (runSequencer (s.refreshStart suppress)) := if_pos hd

/-- Settles O38: a run from REFRESH's first row, which is REF_WINDOW if the blank command is suppressed. -/
theorem refreshSendsTheWholeFrame : Obligations.RefreshSendsTheWholeFrame := by
  intro s suppress oks rest hd ho hn hi
  have hrun : runSequencer (s.refreshStart suppress) =
      (s.refreshStart suppress).refreshEnd (refreshRequests suppress s.params s.fb) oks rest := by
    cases suppress with
    | true => exact run_refWindow_to_end (s.refreshStart true) oks rest ho rfl hn hi
    | false => exact run_refBlank_to_end (s.refreshStart false) oks rest ho rfl hn hi
  rw [exec_refresh_of_ready suppress hd, hrun]
  simp [State.refreshEnd, State.refreshStart, State.responded, ho]

/-! ### A whole INIT -/

theorem dcAfter_concat (entries : List InitEntry) (e : InitEntry) : dcAfter (entries ++ [e]) = dcLevel e.isData := by
  simp [dcAfter, dcLevel]

/-- The record of k answered requests and one more. -/
theorem answeredEvents_concat (rst : Pin) (requests : List Request) (r : Request) (oks : List Bool) (b : Bool)
    (h : requests.length = oks.length) :
    answeredEvents rst (requests ++ [r]) (oks ++ [b]) =
      answeredEvents rst requests oks ++ [{ request := r, rst := rst, answer := some (r.answer b) }] :=
  List.zipWith_append h

/-- Settles O34: the run ends at its first row. -/
theorem initBusFailureFails : Obligations.InitBusFailureFails := by
  intro s rest hd ho hi
  rw [exec_init_of_uninit hd, run_initBus_fail s.initStart rest ho rfl hi]
  simp [initFails, raise, complete, State.responded, State.initStart, State.tookAnswer, Request.answer, ho]

/-- An INIT that began in s after the reset pulse and the first k power-on writes, all answered ok, with l the inputs left
(41_sequencer.md R152). -/
def State.initAfter (k : Nat) (l : List Input) (s : State) : State :=
  { s with
    fb := s.fb.zeroRange 0 20480
    dirtyMin := 0xFFFF#16
    dirtyMax := 0xFFFF#16
    dc := dcAfter (s.params.initSeq.take k)
    rst := .high
    seq := .initCmds
    initIdx := k
    outstanding := none
    inputs := l
    trace := s.trace ++ pulseEvents s.rst ++
      answeredEvents .high ((s.params.initSeq.take k).map initWrite) (List.replicate k true) }

/-- The reset pulse: the rows up to INIT_CMDS, with any answers to the three SLEEPs. -/
theorem run_pulse (s : State) (a b c : Bool) (l : List Input) (ho : s.outstanding = none) (hq : s.seq = .initBus)
    (hi : s.inputs = answers [true, a, b, c] ++ l) : runSequencer s = runSequencer (s.initAfter 0 l) := by
  rw [run_initBus_ok s (answers [a, b, c] ++ l) ho hq hi]
  refine (run_initLines _ rfl rfl).trans ?_
  refine (run_initRstHi _ a (answers [b, c] ++ l) rfl rfl rfl).trans ?_
  refine (run_initRstLo _ b (answers [c] ++ l) rfl rfl rfl).trans ?_
  refine (run_initRstRel _ c l rfl rfl rfl).trans ?_
  simp [State.initAfter, State.tookAnswer, State.setDc, State.setRst, State.goto, State.zeroFb, fbInit, pulseEvents,
    answeredEvents, Request.answer, dcAfter]

/-- The next power-on write, answered ok. -/
theorem run_entry (s : State) (k : Nat) (l : List Input) (hk : k < s.params.initSeq.length) :
    runSequencer (s.initAfter k (.txDone true :: l)) = runSequencer (s.initAfter (k + 1) l) := by
  have he := List.getElem?_eq_getElem hk
  have htake := List.take_append_getElem hk
  rw [run_initCmds_ok (s.initAfter k (.txDone true :: l)) _ l rfl rfl he rfl, State.initAfter, State.initAfter,
    ← htake, dcAfter_concat, List.map_append, List.map_singleton, List.replicate_succ',
    answeredEvents_concat _ _ _ _ _ (by simp; omega), ← List.append_assoc]
  rfl

/-- The reset pulse and k power-on writes answered ok. -/
theorem run_entries (s : State) (a b c : Bool) (k : Nat) (l : List Input) (ho : s.outstanding = none) (hq : s.seq = .initBus)
    (hk : k ≤ s.params.initSeq.length) (hi : s.inputs = answers ([true, a, b, c] ++ List.replicate k true) ++ l) :
    runSequencer s = runSequencer (s.initAfter k l) := by
  induction k generalizing l with
  | zero => exact run_pulse s a b c l ho hq hi
  | succ k ih =>
    rw [ih (.txDone true :: l) (Nat.le_of_succ_le hk) (by simpa [answers, List.replicate_succ'] using hi), run_entry s k l hk]

/-- Settles O33: every entry is written, and INIT_CMDS completes INIT. -/
theorem initSucceeds : Obligations.InitSucceeds := by
  intro s a b c rest hd ho hi
  have hrun := run_entries s.initStart a b c s.params.initSeq.length rest ho rfl le_rfl hi
  rw [exec_init_of_uninit hd, hrun, runSequencer_initCmds_end _ rfl rfl rfl]
  refine ⟨_, rfl, ?_, read_zeroedFrame s.fb⟩
  simp [ok, complete, State.responded, State.initAfter, State.initStart, ho]

/-- Settles O35: k entries are written, and the answer to the next one fails INIT. -/
theorem initWriteFailureFails : Obligations.InitWriteFailureFails := by
  intro s a b c k rest hd ho hk hi
  have he : s.params.initSeq[k]? = some s.params.initSeq[k] := List.getElem?_eq_getElem hk
  have hrun := run_entries s.initStart a b c k (.txDone false :: rest) ho rfl (Nat.le_of_lt hk)
    (by simpa [answers, State.initStart] using hi)
  have hfail := run_initCmds_fail (s.initStart.initAfter k (.txDone false :: rest)) _ rest rfl rfl he rfl
  rw [exec_init_of_uninit hd, hrun, hfail]
  refine ⟨_, rfl, ?_, read_zeroedFrame s.fb⟩
  rw [← List.take_append_getElem hk, dcAfter_concat, List.map_append, List.map_singleton,
    answeredEvents_concat _ _ _ _ _ (by simp; omega), ← List.append_assoc]
  simp [initFails, raise, complete, State.responded, State.initAfter, State.initStart, State.tookAnswer, State.setDc, ho]

end Sys2Proof.Machine
end

section
/-! ## One response per command, and the commands a driver rejects (60_exceptions.md R200 to R202, R214)

On the way of a command BUSY is 1 and no response is added, until the one completion of its table or rule: `ResponseRun`. -/

namespace Sys2Proof.Machine

/-! ### Totality and the state check -/

/-- Settles O15: the ready check comes first. -/
theorem notReadyCommandsAreRejected : Obligations.NotReadyCommandsAreRejected := exec_of_not_ready

/-- Settles O42, command by command, its check passed or not. -/
theorem everyCommandAnswersNext : Obligations.EveryCommandAnswersNext := exec_answers_next

/-- Settles O46: FAILED is neither INIT's UNINIT nor the others' READY, and only an INIT in UNINIT writes DRV_STATE. -/
theorem failedDriverRejectsAllButHalt : Obligations.FailedDriverRejectsAllButHalt := by
  intro i s hd
  refine ⟨fun hh => ?_, ?_⟩
  · by_cases hi : i = .init
    · subst hi
      exact initOutsideUninitIsRejected s (by simp [hd])
    · exact exec_of_not_ready i s hi hh (by simp [hd])
  · obtain ⟨t, ht⟩ := exec_answers_next i s
    exact ⟨t, ht, (drv_of_commandEffect (exec_effect i s t ht) fun _ => by simp [hd]).trans hd⟩

/-! ### One response -/

/-- From s to t a command waits and added no response, or has completed and added exactly the one RSP_STATUS and RSP_DATA show. -/
def OneResponse (s t : State) : Prop :=
  t.busy = true ∧ t.responses = s.responses ∨
    t.busy = false ∧ t.responses = s.responses ++ [{ status := t.rspStatus, data := t.rspData }]

/-- On the way of a command from s, where a completed one stands at no row of a table any more. -/
def ResponseRun (s t : State) : Prop := OneResponse s t ∧ (t.busy = false → t.seq = .idle)

theorem responseRun_of_busy {s t : State} (hb : t.busy = true) (hr : t.responses = s.responses) : ResponseRun s t :=
  ⟨.inl ⟨hb, hr⟩, by simp [hb]⟩

theorem responseRun_complete {s t : State} (st : Status) (d : Byte) (hr : t.responses = s.responses) :
    ResponseRun s (complete st d t) := ⟨.inr ⟨rfl, congrArg (· ++ _) hr⟩, fun _ => rfl⟩

/-- A command on its way still runs, or has completed and has left its table. -/
theorem ResponseRun.cases {s t : State} (h : ResponseRun s t) :
    t.busy = true ∧ t.responses = s.responses ∨ t.seq = .idle := by
  obtain ⟨hbusy | ⟨hb, -⟩, hidle⟩ := h
  · exact .inl hbusy
  · exact .inr (hidle hb)

/-- Of the rows' actions, only INIT_CMDS with everything sent completes the command (41_sequencer.md R152). -/
theorem responseRun_rowAction (s t : State) (h : ResponseRun s t) : ResponseRun s (rowAction t) := by
  obtain ⟨hb, hr⟩ | hq := h.cases
  · cases hreq : rowRequest t with
    | some r =>
      obtain ⟨dc, rst, ha⟩ := rowAction_of_request t r hreq
      rw [ha]
      exact responseRun_of_busy hb hr
    | none =>
      cases hq : t.seq <;> simp [rowRequest, hq] at hreq
      case idle => rwa [rowAction_of_idle t hq]
      case exec => simpa [rowAction, hq] using h
      case initLines => rw [rowAction_initLines t hq]; exact responseRun_of_busy hb hr
      case initZero => rw [rowAction_initZero t hq]; exact responseRun_of_busy hb hr
      case initCmds => rw [rowAction_initCmds_end t hq (by simpa using hreq)]; exact responseRun_complete _ _ hr
      case refData => rw [rowAction_refData_end t hq (by omega)]; exact responseRun_of_busy hb hr
  · rwa [rowAction_of_idle t hq]

/-- An answer completes the command if it fails INIT, or at REF_UNBLANK (41_sequencer.md R152, R154). -/
theorem responseRun_rowAnswered (s t : State) (b : Bool) (h : ResponseRun s t) : ResponseRun s (rowAnswered b t) := by
  obtain ⟨hb, hr⟩ | hq := h.cases
  · cases hq : t.seq
    case idle => rwa [rowAnswered_of_idle t b hq]
    case exec => simpa [rowAnswered, hq] using h
    case initBus =>
      rw [rowAnswered_initBus t b hq]
      cases b with
      | true => exact responseRun_of_busy hb hr
      | false => exact responseRun_complete _ _ hr
    case initLines => rwa [rowAnswered_initLines t b hq]
    case initZero => rwa [rowAnswered_initZero t b hq]
    case initRstHi => rw [rowAnswered_initRstHi t b hq]; exact responseRun_of_busy hb hr
    case initRstLo => rw [rowAnswered_initRstLo t b hq]; exact responseRun_of_busy hb hr
    case initRstRel => rw [rowAnswered_initRstRel t b hq]; exact responseRun_of_busy hb hr
    case initCmds =>
      rw [rowAnswered_initCmds t b hq]
      cases b with
      | true => exact responseRun_of_busy hb hr
      | false => exact responseRun_complete _ _ hr
    case refBlank => rw [rowAnswered_refBlank t b hq]; exact responseRun_of_busy hb hr
    case refWindow => rw [rowAnswered_refWindow t b hq]; exact responseRun_of_busy hb hr
    case refData => rw [rowAnswered_refData t b hq, nextChunk_eq]; exact responseRun_of_busy hb hr
    case refUnblank => rw [rowAnswered_refUnblank t b hq]; exact responseRun_complete _ _ hr
  · rwa [rowAnswered_of_idle t b hq]

theorem responseRun_answered (s t : State) (b : Bool) (l : List Input) (h : ResponseRun s t) :
    ResponseRun s (answered b { t with inputs := l }) :=
  responseRun_rowAnswered s _ b (by simpa [ResponseRun, OneResponse] using h)

/-- A run of the sequencer ends waiting, or completed with its one response. -/
theorem oneResponse_runSequencer {s t : State} (h : ResponseRun s t) : OneResponse s (runSequencer t) :=
  (runSequencer_induction (ResponseRun s) (responseRun_rowAction s) (responseRun_answered s) t h).1

/-- A command is a run of INIT or REFRESH, or completes at once. -/
theorem oneResponse_of_commandEffect {s t : State} {i : Instr} (he : CommandEffect s i t) : OneResponse s t := by
  cases he with
  | init hd => exact oneResponse_runSequencer (responseRun_of_busy rfl rfl)
  | refresh b hd => exact oneResponse_runSequencer (responseRun_of_busy rfl rfl)
  | _ => exact .inr ⟨rfl, rfl⟩

/-- Settles O43: for a command by its effect; for a step by cases on what it does. -/
theorem oneResponsePerCommand : Obligations.OneResponsePerCommand := by
  refine ⟨fun i s t h => oneResponse_of_commandEffect (exec_effect i s t h), fun s t h hs => ?_⟩
  cases step_effect s t h.control hs with
  | reset l hi => exact ⟨fun hr => absurd (by rw [hi]; rfl) hr, fun _ => ⟨rfl, rfl⟩⟩
  | outside o m l hr hq hm =>
    refine ⟨fun _ hcmd => .inl ⟨?_, rfl⟩, fun hnone => ⟨(hnone.resolve_left hr).1, rfl⟩⟩
    rcases hq with hb | ho
    · exact hb
    · exact hcmd.resolve_right (by simp [ho])
  | illegal w why hr hb ho hd => exact ⟨fun _ _ => .inr ⟨rfl, rfl⟩, fun hnone => by simp [hr, ho] at hnone⟩
  | command w i t hr hb ho hd he =>
    have hone : OneResponse (acceptWord w s) t := oneResponse_of_commandEffect he
    exact ⟨fun _ _ => hone, fun hnone => by simp [hr, ho] at hnone⟩
  | answer b l hi hb ho =>
    have hone := oneResponse_runSequencer (responseRun_answered s s b l (responseRun_of_busy hb rfl))
    exact ⟨fun _ _ => hone, fun hnone => by simp [hi, hb] at hnone⟩

end Sys2Proof.Machine
end

section
/-! ## Block reset, and the states that stay (70_reset_and_hazards.md R230, R240)

What a finished or a stuck state says of its coming moves is stated on the first move and the rest (`State.Finished.tail`,
`willBeAnswered_cons`), so that it passes from a state to the next one. -/

namespace Sys2Proof.Machine

/-! ### Block reset -/

/-- A block reset records the request on the port without an answer. -/
theorem blockReset_trace_of_some (s : State) (r : Request) (h : s.outstanding = some r) :
    (blockReset s).trace = s.trace ++ [{ request := r, rst := s.rst, answer := none }] := by
  rw [blockReset, record_trace_of_some _ s r h]

/-- A block reset with no request on the port leaves the record of requests as it is. -/
theorem blockReset_trace_of_none (s : State) (h : s.outstanding = none) : (blockReset s).trace = s.trace := by
  rw [blockReset, record_of_none _ s h]

theorem statusWord_blockReset (s : State) : statusWord (blockReset s) = 0x00000000#32 :=
  show statusWord State.reset = 0x00000000#32 from rfl

theorem dirtyWord_blockReset (s : State) : dirtyWord (blockReset s) = 0xFFFFFFFF#32 :=
  show dirtyWord State.reset = 0xFFFFFFFF#32 from rfl

/-- Settles O9: the step is a block reset, which writes constants or keeps what is the Host's; a request on the port is recorded. -/
theorem blockResetTakesTheResetValues : Obligations.BlockResetTakesTheResetValues := by
  intro s rest hi
  refine ⟨_, step_reset s rest hi, rfl, statusWord_blockReset _, dirtyWord_blockReset _, rfl, ?_⟩
  cases s.outstanding with
  | some r => exact blockReset_trace_of_some _ r rfl
  | none => exact (blockReset_trace_of_none _ rfl).trans (List.append_nil s.trace).symm

/-! ### Finished states -/

theorem hostOffers_eq_false_iff (s : State) :
    s.hostOffers = false ↔ s.offered = none ∧ ∀ w, Input.offer w ∉ s.inputs := by
  simp only [State.hostOffers, Bool.or_eq_false_iff, Option.isSome_eq_false_iff, Option.isNone_iff_eq_none, List.any_eq_false]
  refine and_congr_right fun _ => ⟨fun h w hw => h _ hw rfl, fun h i hi => ?_⟩
  cases i with
  | offer w => exact absurd hi (h w)
  | srcWrite | txDone | reset | pass => exact Bool.false_ne_true

/-- A finished state is an idle block with nothing offered. -/
theorem State.Finished.ready {s : State} (h : s.Finished) : s.busy = false ∧ s.offered = none := by
  obtain ⟨hb, -, -, hoffers⟩ := h
  exact ⟨hb, ((hostOffers_eq_false_iff s).1 hoffers).1⟩

/-- The first coming move of a finished state is no offer. -/
theorem State.Finished.head_ne_offer {s : State} (h : s.Finished) {i : Input} {l : List Input} (hi : s.inputs = i :: l)
    (w : Word) : i ≠ .offer w := by
  obtain ⟨-, -, -, hoffers⟩ := h
  rintro rfl
  exact ((hostOffers_eq_false_iff s).1 hoffers).2 w (by simp [hi])

/-- A finished state is finished without its first coming move too. -/
theorem State.Finished.tail {s : State} (h : s.Finished) {i : Input} {l : List Input} (hi : s.inputs = i :: l) :
    State.Finished { s with inputs := l } := by
  obtain ⟨hb, hq, ho, hoffers⟩ := h
  obtain ⟨hport, hcoming⟩ := (hostOffers_eq_false_iff s).1 hoffers
  exact ⟨hb, hq, ho, (hostOffers_eq_false_iff _).2 ⟨hport, fun w hw => hcoming w (by simp [hi, hw])⟩⟩

/-- A move that offers no word leaves an idle block finished, and the two records as they are. -/
theorem idleInput_of_finished {s : State} (h : s.Finished) {i : Input} (hi : ∀ w, i ≠ .offer w) :
    (idleInput i s).Finished ∧ (idleInput i s).responses = s.responses ∧ (idleInput i s).trace = s.trace := by
  cases i with
  | offer w => exact absurd rfl (hi w)
  | srcWrite | txDone | pass => exact ⟨h, rfl, rfl⟩
  | reset =>
    obtain ⟨-, -, ho, hoffers⟩ := h
    exact ⟨⟨rfl, rfl, rfl, hoffers⟩, rfl, blockReset_trace_of_none s ho⟩

theorem State.Finished.step_nothing {s : State} (h : s.Finished) (hi : s.inputs = []) : step s = .next s := by
  obtain ⟨hb, ho⟩ := h.ready
  exact step_idle_nothing s hb ho hi

/-- A finished state steps to a finished state and records nothing. -/
theorem State.Finished.step_next {s : State} (h : s.Finished) :
    ∃ t, step s = .next t ∧ t.Finished ∧ t.responses = s.responses ∧ t.trace = s.trace := by
  rcases hi : s.inputs with _ | ⟨i, l⟩
  · exact ⟨s, h.step_nothing hi, h, rfl, rfl⟩
  · obtain ⟨hb, ho⟩ := h.ready
    exact ⟨_, step_idle_input s i l hb ho hi, idleInput_of_finished (h.tail hi) (h.head_ne_offer hi)⟩

/-! ### Stuck states -/

/-- Whether a request is answered, by the first coming move: an answer, a reset, or any other move, which leaves it to the rest. -/
theorem willBeAnswered_cons (s : State) (i : Input) (l : List Input) (hi : s.inputs = i :: l) :
    s.willBeAnswered =
      match i with
      | .txDone _ => true
      | .reset => false
      | .offer _ | .srcWrite _ _ | .pass => State.willBeAnswered { s with inputs := l } := by
  cases i <;> simp [State.willBeAnswered, hi]

/-- A stuck state waits for the next move at its row. -/
theorem State.Stuck.step_eq {s : State} (h : s.Stuck) (hr : (rowRequest s).isSome = true) : step s = waitingStep s := by
  obtain ⟨hb, ho, -⟩ := h
  obtain ⟨r, ho⟩ := Option.isSome_iff_exists.1 ho
  exact step_waiting s r hb ho hr

theorem State.Stuck.step_nothing {s : State} (h : s.Stuck) (hr : (rowRequest s).isSome = true) (hi : s.inputs = []) :
    step s = .next s := by
  rw [h.step_eq hr, waitingStep, hi]

/-- A stuck state steps to a stuck state, which differs in the port and the moves left: the next move is no answer, so it is
nothing, an offer or a passing of time. -/
theorem State.Stuck.step_next {s : State} (h : s.Stuck) (hr : (rowRequest s).isSome = true)
    (hreset : s.inputs.head? ≠ some .reset) (hsrc : ∀ a v l, s.inputs ≠ .srcWrite a v :: l) :
    ∃ t, step s = .next t ∧ t.Stuck ∧ { s with offered := t.offered, inputs := s.inputs.tail } = t := by
  rcases hi : s.inputs with _ | ⟨i, l⟩
  · exact ⟨s, h.step_nothing hr hi, h, by rw [List.tail_nil, ← hi]⟩
  · have hstep := h.step_eq hr
    obtain ⟨hb, ho, hnever⟩ := h
    rw [willBeAnswered_cons s i l hi] at hnever
    rw [hstep, waitingStep, hi]
    cases i with
    | txDone b => cases hnever
    | srcWrite a v => exact absurd hi (hsrc a v l)
    | reset => exact absurd (by rw [hi]; rfl) hreset
    | offer w => exact ⟨_, rfl, ⟨hb, ho, hnever⟩, rfl⟩
    | pass => exact ⟨_, rfl, ⟨hb, ho, hnever⟩, rfl⟩

/-- Settles O14: the next move offers a finished block no word, and gives a stuck one no answer. -/
theorem finishedAndStuckStatesStay : Obligations.FinishedAndStuckStatesStay :=
  ⟨fun _ h => h.step_nothing, fun _ h => h.step_next, fun _ h => h.step_nothing, fun _ h => h.step_next⟩

end Sys2Proof.Machine
end
